-- ==== Sys2Proof/Word.lean ====
section
/-! DEFINITION. The word types of the FV4096 model and their plainest arithmetic: bytes, 32-bit registers, tick
numbers, the index types of lanes, arms, slots and host contexts, and the one keyed-list type that every large
table of the device is held in. Bit 0 is the least significant (R5). -/

namespace Sys2Proof

/-- A byte of a table entry, a frame or a record (R5, R6). -/
abbrev Byte := BitVec 8

/-- A 32-bit register value (R9). -/
abbrev Word := BitVec 32

/-- A tick number, which wraps at 2^32 (R36) and is compared by signed difference (R90). -/
abbrev Tick := BitVec 32

/-- A binary32 number, held as its 32 bits (R258). -/
abbrev F32 := BitVec 32

/-- A binary64 number, held as its 64 bits (R291). -/
abbrev F64 := BitVec 64

/-- A star lane, 0 to 63. -/
abbrev LaneIx := Fin 64

/-- A cell address, lane × 128 + slot (R14). -/
abbrev CellAddr := BitVec 13

/-- An arm, 0 to 11 (R10). -/
abbrev ArmIx := Fin 12

/-- A host context, 0 to 15 (R485). -/
abbrev CtxIx := Fin 16

/-- Sparse data by key: key and value pairs, keys strictly rising, no pair equal to what an unlisted key reads as.
What an unlisted key reads as is named by each use. -/
abbrev KeyList (α : Type) := List (Nat × α)

/-- `b` as 0 or 1. -/
def bitNat (b : Bool) : Nat := if b then 1 else 0

/-- The lane of a cell address (R14). -/
def laneOf (a : CellAddr) : Nat := a.toNat / 128

/-- The slot of a cell address (R14). -/
def slotOf (a : CellAddr) : Nat := a.toNat % 128

/-- The cell address of a lane and a slot (R14). -/
def addrOf (lane slot : Nat) : CellAddr := BitVec.ofNat 13 (lane * 128 + slot)

end Sys2Proof
end

