-- ==== Sys2Proof/Machine/TypesTick.lean ====
section
/-! DEFINITION. The types of the converter's view, the tick, the clocks and time (chapters 01 to 03): device and
converter states, duplex roles, cell-table entries, per-cell records, compute phases and the time servo. -/

namespace Sys2Proof.Machine

/-- Device states ("Device states", R27). -/
inductive DevState where
  | reset | boot | setup | run | failstop
  deriving DecidableEq, Repr

/-- Converter states ("Converter states", R28). -/
inductive ConvState where
  | dormant | watch | ready | deblocked | blocked | tripped
  deriving DecidableEq, Repr

/-- Duplex roles ("Duplex roles", R374). -/
inductive Role where
  | solo | active | standby | resync | failstop
  deriving DecidableEq, Repr

/-- Lane modes, coded as TCK_CFG.MODE (R68). -/
inductive LaneMode where
  | swift | dense | deep
  deriving DecidableEq, Repr

/-- Availability states of a cell (R21). -/
inductive Avail where
  | empty | unranged | available | refreshing | missing | faulted | bypassed | outOfService
  deriving DecidableEq, Repr

/-- A cell-table entry (R18). -/
structure CellEntry where
  serial    : BitVec 64 := 0
  arm       : BitVec 4 := 0
  ctype     : BitVec 2 := 0
  boot      : Bool := false
  dtClass   : BitVec 2 := 0
  mpClass   : BitVec 4 := 0
  capUf     : BitVec 16 := 0
  avail     : Avail := .empty
  rvoid     : Bool := false
  lastFault : Byte := 0
  txOffset  : BitVec 16 := 0
  dsDelay   : BitVec 16 := 0
  rangeTick : Tick := 0
  deriving DecidableEq, Repr

/-- The live per-cell record (R26). `availCopy` is its copy of AVAIL. -/
structure CellRec where
  state     : BitVec 4 := 0
  availCopy : Avail := .empty
  vcap      : BitVec 16 := 0
  tmod      : Byte := 0
  rptOk     : Bool := false
  pred      : Bool := false
  ntrans    : BitVec 2 := 0
  forced    : Bool := false
  missCnt   : BitVec 3 := 0
  fault     : Byte := 0
  dtMeas    : Byte := 0
  seq       : Byte := 0
  deriving DecidableEq, Repr

/-- What one upstream slot brought in this tick (R113 to R118, R152), kept until the window closes. -/
inductive SlotRx where
  | nothing                               -- no K27.7 found by symbol 42
  | measured                              -- measured, discarded undecoded (R117)
  | invalid                               -- decoded and failing BCRC or ADDR (R152)
  | collision                             -- failing BCRC at a free position of a discovery window (R604)
  | report (payload : List Byte)          -- a valid NORMAL report
  | echo (payload : List Byte)            -- a valid ECHO report (R125)
  deriving DecidableEq, Repr

/-- A change of AVAIL waiting for the mark it falls due at (R24, R25). -/
structure AvailChange where
  addr   : CellAddr
  target : Avail
  bySerial : Bool := false
  deriving DecidableEq, Repr

/-- Ranging of a cell between its ASSIGN and completion or failure (R157, R164). -/
structure Confirm where
  apply : Tick
  run   : Nat := 0
  deriving DecidableEq, Repr

/-- What the device built for one cell in one execution window (R26, R320): the signed time inserted from the effective
instants, in quarters of a full-rate symbol, the state at its end, the transitions commanded, and whether forced. -/
structure WinEntry where
  window : Tick
  tau    : Int := 0
  endSt  : BitVec 4 := 0
  ntrans : Nat := 0
  forced : Bool := false
  deriving DecidableEq, Repr

/-- The device's running knowledge of one cell beside its table entry and record. -/
structure CellDyn where
  seq       : Byte := 0                    -- SEQ last placed in a slot (R148)
  validRun  : Nat := 0                     -- consecutive valid reports while MISSING (R21)
  missRun   : Nat := 0                     -- consecutive missing reports (R21)
  rx        : SlotRx := .nothing           -- this tick's upstream slot
  shortOn   : Bool := false                -- last report carried a short-class fault (R345)
  dw        : Nat := 0                     -- dwell count DW (R330)
  bypSyms   : Nat := 0                     -- unbroken BYPASS up to the last window's end, in 0.1 ns (R330)
  toggle    : Bool := false                -- false: the next entry into bypass is BYPASS (R329)
  refEnd    : Option Tick := none          -- first window after the running refresh (R333)
  endState  : BitVec 4 := 0                -- commanded state at the end of the last built window
  lastInst  : Option (Tick × Nat) := none  -- window and symbol of the last commanded instant (R301, R318)
  wins      : List WinEntry := []          -- the newest windows, newest first
  forcedTo  : Option (BitVec 4) := none    -- a force in effect (R307)
  dsExact   : Int := 0                     -- exact downstream delay, 2^-13 symbol (R603)
  usExact   : Int := 0                     -- exact upstream delay, 2^-13 symbol (R603)
  acc       : Int := 0                     -- tracking sum, 1/16 symbol (R158)
  cnt       : Nat := 0                     -- tracking count (R158)
  holdTill  : Option Tick := none          -- measurements before this apply tick are discarded (R158)
  confirm   : Option Confirm := none       -- ranging not yet complete (R164)
  parked    : Option Tick := none          -- window whose frame carried the PARK that ended its identification (R555)
  reached   : Bool := false                -- event REACH of tracking posted (R158)
  deriving DecidableEq, Repr

/-- One address of the cell table with everything the device keeps for it. -/
structure Cell where
  ent : CellEntry := {}
  live : CellRec := {}
  dyn : CellDyn := {}
  deriving DecidableEq, Repr

/-- A command slot of a frame, before its SEQ and CRC (R145). -/
structure SlotCmd where
  stateA  : BitVec 4 := 0
  stateB  : BitVec 4 := 8
  instA   : BitVec 14 := 0
  instB   : BitVec 14 := 0x3FFF
  dtClass : BitVec 2 := 0
  force   : Bool := false
  refresh : Bool := false
  pset    : BitVec 2 := 0
  seq     : Byte := 0
  deriving DecidableEq, Repr

/-- The converter change a change of tick numbering belongs to (R64). -/
inductive NumKind where
  | rateToFull | rateToWatch | laneStart | laneStop
  deriving DecidableEq, Repr

/-- A pending change of the tick numbering (R61 to R64). -/
structure NumChange where
  kind      : NumKind
  lastOld   : Tick                   -- L, the last mark of the old numbering
  switchAt  : Option Nat             -- Timecount of the first mark of the new numbering, once fixed
  ctx       : Nat                    -- the command that asked for it
  started   : Bool := false          -- the first rate-change set has been sent (R61)
  deriving DecidableEq, Repr

/-- The clocks outside the registers (R69 to R87). -/
structure ClockSt where
  nint       : BitVec 8 := 0x32      -- active divider (R72)
  frac       : BitVec 24 := 0        -- active fraction (R69)
  fracNext   : Option (BitVec 24) := none  -- a committed value for the next mark (R70, R72)
  switchEnd  : Nat := 0              -- Timecount at which the newest reference switch is complete (R73, R82)
  onOsc      : Bool := false         -- the bypass clock is the on-die oscillator (R84)
  stopAt     : Option Nat := none    -- Timecount of the lane stop after unlock (R84)
  late       : BitVec 16 := 0        -- trigger units whose target was past when armed or stepped over (R99)
  passed     : BitVec 16 := 0        -- trigger units a forward step passed (R99)
  trigTasks  : List Nat := []        -- event tasks to start at the next mark (R97)
  applied    : LaneMode := .dense    -- lane mode last applied to the lanes (R64)
  deriving DecidableEq, Repr

/-- The time servo (R91 to R95). -/
structure ServoSt where
  acquired  : Bool := false          -- a source has been acquired since reset (R93)
  inBand    : Nat := 0               -- consecutive measurements within 100 ns (R93)
  offset    : Option Int := none     -- an offset measured since the newest mark (R91)
  recent    : List Int := []         -- the last 64 values of FRAC, newest first (R94)
  value     : Int := 0               -- the 32-bit fraction
  dither    : Byte := 0              -- sum of its lower 8 bits, mod 256
  lastEdge  : Option Nat := none     -- Timecount of the last SYNC_IN edge, in 1/64 ns (R88, R93)
  deriving DecidableEq, Repr

/-- A held write to a register field of access ST (R59). -/
structure StWrite where
  addr  : Nat
  value : Word
  at_   : Nat                        -- Timecount of the write
  deriving DecidableEq, Repr

end Sys2Proof.Machine
end

