-- ==== Sys2Proof/Machine/TypesHost.lean ====
section
/-! DEFINITION. The types of bench programs, the Foreman, the Ledger and the host contexts (chapters 15 to 18). -/

namespace Sys2Proof.Machine

/-- A task of a program image (R422). -/
structure TaskDef where
  event    : Bool
  safety   : Bool
  ovrOnce  : Bool
  prio     : Nat
  period   : Nat                      -- PERIOD, or the event task number
  offset   : Nat
  affinity : BitVec 16
  wdt      : Nat
  ovrLim   : Nat
  rseg     : Nat
  deriving DecidableEq, Repr

/-- An I/O map entry (R429). -/
structure IoEntry where
  output : Bool
  vtype  : Nat
  code   : Nat
  offset : Nat
  deriving DecidableEq, Repr

/-- A variable of the directory (R419). -/
structure VarDef where
  id     : Word
  vtype  : Nat
  offset : Nat
  rseg   : Nat
  deriving DecidableEq, Repr

/-- A verified program image (R419). -/
structure ProgImage where
  compat  : BitVec 16
  imageId : BitVec 64
  predId  : BitVec 64
  codeLen : Nat
  rlayout : Word
  tasks   : List TaskDef              -- cyclic tasks first
  io      : List IoEntry
  vars    : List VarDef
  idata   : List Byte                 -- initial instance data
  hash    : List Byte                 -- BODY_HASH of its signed image
  epoch   : Nat                       -- EPOCH of its signed image
  deriving DecidableEq, Repr

/-- One output a cycle hands over when it ends, or one call it made of a block that keeps an edge (R432 to R434). `var` is the directory
variable that the program's code has at the output or input; `q` is none where the program never writes the quality. -/
inductive CycleOut where
  | mailbox (m : Fin 64) (v : F32) (q : Option (BitVec 3)) (var : Option Word)
  | remote (station : Fin 32) (point : Fin 32) (v : Word) (q : Option (BitVec 3)) (var : Option Word)
  | bankSwap (chain : Fin 40) (bank : Bool) (len : BitVec 16)
  | event (fb : Word) (n : Fin 64) (req : Bool)     -- a call of the FV_EVENT `fb` names
  | trig (fb : Word) (falling : Bool) (clk : Bool) (var : Option Word) -- a call of the R_TRIG or F_TRIG `fb` names
  | instanceData (offset : Nat) (data : List Byte)
  | divZero                            -- an integer division by zero occurred (R428)
  deriving DecidableEq, Repr

/-- The states of a Foreman context (R450). -/
inductive CtxState where
  | free | idle | waiting | ready | running | stopped
  deriving DecidableEq, Repr

/-- A Foreman context (R449 to R453). -/
structure FmnCtx where
  st      : CtxState := .free
  flags   : BitVec 64 := 0
  wmask   : BitVec 64 := 0
  all     : Bool := false
  left    : Nat := 0                   -- ticks left in the wait
  rel     : BitVec 64 := 0             -- release flags of the last release
  tmo     : Bool := false              -- the last release was a timeout
  prio    : Nat := 0
  exec    : Nat := 0                   -- executor of the last dispatch
  flow    : Nat := 0
  affinity : BitVec 16 := 0
  stamp   : Nat := 0                   -- order of dispatch, for R458
  deriving DecidableEq, Repr

/-- A force of a program variable (R439). -/
structure VarForce where
  id    : Word
  value : Word
  qual  : BitVec 3
  act   : Tick                          -- acts from the first cycle released at or after this tick
  deriving DecidableEq, Repr

/-- The memory of a block that detects edges: its input at its previous call, and what that call answered (R433, R434). -/
structure EdgeMem where
  prev : Bool := false
  q    : Bool := false
  deriving DecidableEq, Repr

/-- A task's running state (R423 to R428). -/
structure TaskSt where
  next     : Tick := 0
  running  : Option (Tick × Nat) := none -- release tick and Timecount of the cycle in hand
  held     : Option Tick := none        -- a missed release to run late (R426)
  stopped  : Bool := false
  pend     : Bool := false
  ovrRun   : Nat := 0
  image    : List (Nat × F32 × BitVec 3) := [] -- the input image of the cycle (R431)
  lastRel  : Nat := 0                   -- Timecount of the newest release (R444)
  overran  : Bool := false              -- the cycle in hand has overrun (R426)
  age      : Nat := 0                   -- marks since its release, not counted while its executor is halted (R427)
  forces   : List VarForce := []        -- the forces in place for the cycle in hand (R439)
  fsw      : BitVec 64 := 0             -- FV_FAULT: the Fault Status Word at the release instant (R433)
  maxsev   : Nat := 0                   -- FV_FAULT: MAXSEV at the release instant (R433)
  banks    : BitVec 40 := 0             -- FV_BANKSWAP: chains whose active bank was B at the release (R433)
  asked    : List Nat := []             -- chains whose FV_BANKSWAP request waits for its FADE_DONE (R433)
  faded    : List Nat := []             -- of those, the ones whose FADE_DONE has come since the last release
  swapDone : List Nat := []             -- FV_BANKSWAP: DONE as the cycle in hand reads it (R433)
  deriving DecidableEq, Repr

/-- One copy of a RETAIN segment in the MRAM (R437). -/
structure RetainCopy where
  layout : Word
  jseq   : Word
  data   : List Byte
  good   : Bool := true                 -- its JCRC is good
  deriving DecidableEq, Repr

/-- A journal buffer waiting for the MRAM (R437). -/
structure Journal where
  seg    : Nat
  copy   : RetainCopy
  doneA  : Bool := false                -- copy A is complete
  deriving DecidableEq, Repr

/-- The program state (R435). -/
inductive ProgState where
  | stopped | running | changing
  deriving DecidableEq, Repr

/-- A station's running state (R443 to R446). -/
structure StationSt where
  oseq     : BitVec 16 := 0
  waiting  : List (BitVec 16 × Nat) := [] -- publications not yet acknowledged, with their cycle deadlines, oldest first
  lost     : Bool := false
  inputs   : List Word := []            -- newest valid input dataset
  quals    : List (BitVec 3) := []
  arrived  : Nat := 0                   -- Timecount at which it arrived
  latched  : List (Word × BitVec 3) := [] -- as the owner's last release latched it (R444)
  outputs  : KeyList (Word × BitVec 3) := []
  deriving DecidableEq, Repr

/-- The benches, the program and remote I/O (chapter 15). -/
structure BenchSt where
  pstate  : ProgState := .stopped
  image   : Option ProgImage := none    -- the image started last
  staged  : Option ProgImage := none    -- loaded and verified, not started (R440)
  changeTo : Option (ProgImage × Tick × Nat) := none -- new image, switch tick, order of its command
  idata   : List Byte := []             -- active instance data
  tasks   : KeyList TaskSt := []        -- task register number t (R448)
  forces  : List VarForce := []
  mramA   : KeyList RetainCopy := []
  mramB   : KeyList RetainCopy := []
  journal : List Journal := []
  stations : KeyList StationSt := []
  halted  : BitVec 16 := 0              -- executors halted by debug (R66)
  benchFailed : BitVec 8 := 0           -- benches out of service (R417)
  edges    : KeyList EdgeMem := []      -- block that detects edges → its memory (R433, R434)
  swaps    : List (Nat × Bool × Nat × Nat) := [] -- FV_BANKSWAP requests: chain, bank, FADE_LEN, Timecount (R433)
  deriving DecidableEq, Repr

/-- The opcodes of the submission descriptor (R495). -/
inductive Opcode where
  | nop | stageBatch | snapRead | ledgerFetch | progLoad | progStart | progStop | progChange
  | cellForce | cellUnforce | varForce | varUnforce | cellMbx | cellFw | imgSlice | imgFinish
  | attest | switchover | laneStart | laneStop | rateChange | deblock | blockOrderly | block | blockAck
  deriving DecidableEq, Repr

/-- Completion statuses (R503). -/
inductive Status where
  | ok | refusedLate | refused | badDesc | denied | badOpcode | inhibited | notActive | noReply
  | noSegment | filling | retainInvalid | changeTimeout | failed | aborted | sigInvalid
  deriving DecidableEq, Repr

/-- A command in flight (R464): fetched, with the bytes of its descriptor and its buffer. -/
structure HostCmd where
  ctx    : Nat
  opc    : Opcode
  tag    : BitVec 16
  noIrq  : Bool := false
  nbTick : Option Tick := none          -- EFF_TICK when NOTBEFORE is 1
  tai    : Option Nat := none           -- TAI time of a DEBLOCK (R96)
  dlv    : Tick := 0
  len    : Nat := 0
  haddr  : BitVec 64 := 0
  param  : List Byte := []              -- PARAM, 28 bytes
  body   : List Byte := []              -- the buffer at HADDR where the command reads it
  mirrored : Bool := false              -- taken from a CMD record (R513)
  deriving DecidableEq, Repr

/-- An accepted command with its effective tick (R498). -/
structure Accepted where
  cmd   : HostCmd
  tick  : Tick
  order : Nat                           -- order of acceptance (R463)
  begun : Bool := false                 -- an untimed command has started executing
  deriving DecidableEq, Repr

/-- A completion (R502). -/
structure Completion where
  tag    : BitVec 16
  status : Status
  opc    : Byte
  etick  : Tick
  time   : Option Nat := none           -- Timecount of mark ETICK; none for an untimed command
  result : Option (BitVec 64 × List Byte) := none -- result buffer written before the entry (R491)
  info   : List Byte := []
  noIrq  : Bool := false
  deriving DecidableEq, Repr

/-- A device event for the host (R504, R505). -/
structure DevEvent where
  ecode : BitVec 16
  tick  : Tick
  time  : Nat
  data  : List Byte := []
  mcnt  : Nat := 0
  overflow : Bool := false
  deriving DecidableEq, Repr

/-- What waits in a host context's completion flow (R465). -/
inductive CqItem where
  | completion (c : Completion)
  | event (e : DevEvent)
  deriving DecidableEq, Repr

/-- A submission-flow item (R461): the descriptor's command or the status it completes with at its release (R494). -/
structure SubItem where
  cmd    : Option HostCmd
  bad    : Option Completion := none    -- BAD_DESC or BAD_OPCODE
  deriving DecidableEq, Repr

/-- A host context (chapter 18). -/
structure HostCtx where
  sqTail  : Nat := 0                    -- last SQ_TAIL written
  cqHead  : Nat := 0                    -- last CQ_HEAD written
  cseq    : BitVec 16 := 0
  sub     : List SubItem := []          -- submission flow, oldest first
  out     : List CqItem := []           -- completion flow, oldest first
  irqC    : Nat := 0                    -- unsignalled completion entries (R509)
  irqE    : Nat := 0
  irqCAt  : Option Nat := none          -- Timecount of the first of them
  irqEAt  : Option Nat := none
  vfOn    : Bool := false               -- VF enabled (R485)
  deriving DecidableEq, Repr

/-- What a flow keeps beside its items (R460, R467). -/
structure FlowSt where
  idle    : Nat := 0                    -- consecutive ticks with items and no release
  stalled : Bool := false               -- FOREMAN_STALL raised since then
  deriving DecidableEq, Repr

/-- An event group's flow (R466): the queue, its reserve, and whether RESERVE was raised in this tick. -/
structure EventFlow where
  queue   : List DevEvent := []         -- oldest first
  reserve : List DevEvent := []
  raised  : Bool := false
  deriving DecidableEq, Repr

/-- The Foreman outside its registers (chapter 16). -/
structure FmnSt where
  ctxs   : KeyList FmnCtx := []
  ready  : List (Nat × Nat) := []       -- ready contexts as (priority, context), in list order
  execs  : KeyList Nat := []            -- executor → context + 1 running on it; 0 when idle
  clock  : Nat := 0                     -- dispatches made
  flows  : KeyList FlowSt := []
  evq    : KeyList EventFlow := []      -- event group → flow 42 + group
  deriving DecidableEq, Repr

/-- A firing of a trigger unit that has come about (R477): its instant, its reasons and the output that fired it. -/
structure TrigFire where
  at_   : Nat
  cond  : Bool := false
  fault : Bool := false
  value : F32 := 0
  deriving DecidableEq, Repr

/-- A Ledger trigger unit's running state (R475 to R478). -/
structure TrigSt where
  armed   : Bool := false
  start   : Option Nat := none          -- instant of the pulse or edge in progress
  peak    : Bool := false               -- an output of the pulse reached HI
  fired   : Bool := false               -- timeout already fired in this pulse
  below   : Bool := false               -- an output below LO − HYST came before the edge (slew)
  stale   : Bool := false               -- the pulse in progress at a re-arm does not count
  holdTill : Option Nat := none         -- hold-off by time
  holdCnt : Option Nat := none          -- firings still to ignore
  fires   : List TrigFire := []         -- firings that have come about and not yet acted, oldest first
  deriving DecidableEq, Repr

/-- A segment held (R479, R480). -/
structure LedgerSeg where
  segid    : BitVec 16
  unit     : Nat
  stream   : Bool
  rCond    : Bool
  rFault   : Bool
  rHost    : Bool
  shortPre : Bool := false
  trunc    : Bool := false
  gap      : Bool := false
  ue       : Bool := false
  last     : Tick                       -- tick of the last sample it is to hold
  preact   : Nat
  sampSz   : Nat
  tstamp   : Nat
  ttick    : Tick
  first    : Tick
  value    : F32 := 0
  ctver    : BitVec 16
  mode     : LaneMode
  watch    : Bool
  samples  : List (List Byte)           -- newest first
  done     : Bool := false
  reserved : Nat                        -- bytes reserved at the firing
  deriving DecidableEq, Repr

/-- The Ledger outside its registers (chapter 17). -/
structure LedgerSt where
  snapRing : List (Tick × List Byte) := [] -- newest first; a lost sample has no bytes (R482)
  chanRing : List (Tick × List Byte) := []
  segs     : List LedgerSeg := []        -- oldest first
  nextSeg  : BitVec 16 := 0
  ctver    : BitVec 16 := 0              -- channel-table commit count (R480)
  trigs    : KeyList TrigSt := []
  gapNextC : Bool := false
  minmax   : KeyList (F32 × F32) := []   -- least and greatest output per channel since the last mark (R472)
  sums     : KeyList (F32 × F32) := []   -- those of the tick that the last mark ended
  deriving DecidableEq, Repr

end Sys2Proof.Machine
end

