-- ==== Sys2Proof/Machine/TypesLane.lean ====
section
/-! DEFINITION. The types of the star lanes, frames, bursts and mailboxes (chapters 04 and 05): transmitted symbols,
mailbox operations and their owners, lane state and cell firmware distribution. -/

namespace Sys2Proof.Machine

/-- One code group of a lane: a data byte or a special symbol (R102, R103). -/
inductive Sym where
  | d (b : Byte)
  | k (b : Byte)
  deriving DecidableEq, Repr

/-- Line settings of a lane (R119, R121). -/
structure EqSet where
  swingMv : Nat                        -- differential output swing, mV peak-to-peak
  post    : Nat                        -- de-emphasis in 0.5 dB counts
  pre     : Nat
  peak    : Nat                        -- receiver peaking at the rate in force, dB
  rxInv   : Bool
  txInv   : Bool
  deriving DecidableEq, Repr

/-- Who asked for a mailbox operation, and so who hears of its reply (R167, R168). -/
inductive MbxOwner where
  | assign (addr : CellAddr)                 -- ASSIGN of discovery (R163)
  | park                                     -- PARK (R163, R164)
  | identPark (addr : CellAddr)              -- PARK of a cell whose identification ended (R555)
  | tracking (addr : CellAddr)               -- RANGE of tracking (R158, R603)
  | echo                                     -- ECHO_START or ECHO_END (R123, R125)
  | host (order : Nat)                       -- a cell-service command, by its order of acceptance (R496)
  | firmware (low : Nat)                     -- firmware distribution, with the low half of a block number read (R169)
  | identRead (addr : CellAddr) (got : List Byte) -- IDENT_READ of an UNRANGED report, with the words read (R555)
  deriving DecidableEq, Repr

/-- A mailbox operation (R165). `slot` 0xFF is a broadcast to the star. -/
structure MbxOp where
  op      : Byte
  slot    : Byte := 0xFF
  arg     : Word := 0
  data    : List Byte := []
  owner   : MbxOwner
  resends : Nat := 0             -- resends made so far (R167)
  deriving DecidableEq, Repr

/-- A unicast operation sent and awaiting its reply (R167). -/
structure MbxOut where
  op    : MbxOp
  tag   : Byte
  etick : Tick
  apply : Tick := 0
  busy  : Option Tick := none    -- tick of the first BUSY answer
  deriving DecidableEq, Repr

/-- A mailbox placed in the frame of one lane (R140, R141). -/
structure MbxFrame where
  slot : Byte := 0
  op   : Byte := 0
  tag  : Byte := 0
  arg  : Word := 0
  data : List Byte := []
  deriving DecidableEq, Repr

/-- A running cell echo (R123 to R125). -/
structure EchoRun where
  slot : Nat
  left : Nat
  deriving DecidableEq, Repr

/-- What the device keeps of one lane beside its registers: star lanes 0 to 63, Dovetail lanes 64 to 67, the referee lane 68. -/
structure LaneSt where
  rd        : Bool := false            -- running disparity of a continuous receiver (R102)
  tail      : List Bool := []          -- bits of its last group, not yet complete
  prbs      : List Bool := []          -- newest bits of the PRBS checker, newest first (R122)
  lit       : Bool := false            -- the lane was lit at the last lane start (R109, R129)
  planVer   : BitVec 16 := 0           -- PLANVER (R143)
  nextTag   : Byte := 0                -- tag of the next mailbox (R141)
  waiting   : List MbxOp := []         -- operations waiting, in order of arrival (R168)
  out       : List MbxOut := []        -- unicast operations awaiting replies (R167)
  discRtt   : Option Int := none       -- round trip of the last measured discovery burst, 1/16 symbol (R161)
  sweep     : Nat := 0                 -- steps of the DISC_RTT sweep taken (R161)
  discMap   : Option (Tick × Nat × Int) := none -- window, FREE bits and DISC_RTT of the newest discovery frame
  discPrev  : Option (Tick × Nat × Int) := none -- of the one before it
  decoded   : Bool := false            -- a burst was decoded in this tick (R127)
  quiet     : Nat := 0                 -- consecutive ticks without a decoded burst (R127)
  codeTick  : Nat := 0                 -- code and disparity errors in this tick (R128)
  codeDone  : Bool := false            -- LANE_CODE raised in this tick
  echo      : Option EchoRun := none
  headers   : List (Tick × List Byte) := [] -- headers of the newest frames, for the echo comparison (R124)
  deriving DecidableEq, Repr

/-- Steps of firmware distribution (R169). -/
inductive FwStage where
  | begin_ | data | query | resend
  deriving DecidableEq, Repr

/-- A firmware distribution in progress (R169, R496). -/
structure FwJob where
  ctx     : Nat
  order   : Nat                            -- order of acceptance of its command
  lanes   : List Nat
  image   : List Byte                      -- the body of the image
  version : Word
  sha     : List Byte
  resLen  : Nat
  stage   : FwStage := .begin_
  next    : Nat := 0                       -- next block to send
  targets : List CellAddr := []            -- cells queried in this round
  missing : List (CellAddr × Nat) := []    -- lowest missing block found per cell in this round
  misses  : List (CellAddr × Nat × Nat) := [] -- how often a cell has missed a block
  results : List (CellAddr × Byte) := []   -- results reached (R496)
  deriving DecidableEq, Repr

end Sys2Proof.Machine
end

