-- ==== Sys2Proof/Machine/TypesMeas.lean ====
section
/-! DEFINITION. The types of measurement, filter chains, the loop engine, the level sequencer and the selector
(chapters 07 to 11). -/

namespace Sys2Proof.Machine

/-- A value with its quality code (R212). -/
structure QVal where
  val  : F32 := 0
  qual : BitVec 3 := 5
  deriving DecidableEq, Repr

/-- A SAR scan that runs (R218, R221). -/
structure SarScan where
  stamp  : Nat                        -- trigger Timecount
  start  : Nat                        -- Timecount of the scan's start
  seq    : BitVec 16
  mask   : BitVec 22
  results : List (Nat × Int × BitVec 3) := []  -- SAR channel (22 for BATT_SENSE_B), result, quality
  deriving DecidableEq, Repr

/-- A completed SAR result for the snapshot set (R236). -/
structure SarResult where
  val   : BitVec 16 := 0
  qual  : BitVec 3 := 0
  stamp : Nat := 0
  delay : BitVec 16 := 0
  seq   : BitVec 16 := 0
  deriving DecidableEq, Repr

/-- Per-AIN open-wire detection (R225). -/
structure OpenWire where
  hits  : Nat := 0
  clear : Nat := 0
  prev  : Option (BitVec 16 × Int) := none -- scan and result before this one, in alternate mode
  deriving DecidableEq, Repr

/-- A calibration point being averaged (R223). -/
structure CalRun where
  ch    : Nat
  point : Bool
  count : Nat := 0
  sum   : Rat := 0
  bad   : Bool := false
  inScan : Option (BitVec 16) := none -- the SAR scan of the newest result in it
  deriving DecidableEq, Repr

/-- A sampled-value sample of one stream (R232): its date in ns and its values with qualities. -/
structure SvSample where
  date : Nat
  vals : List QVal
  deriving DecidableEq, Repr

/-- A sampled-value subscription's running state (R232, R233). -/
structure SvSt where
  queue   : List SvSample := []       -- accepted, not yet delivered
  deliv   : List QVal := []           -- as delivered at the last mark
  date    : Option Nat := none        -- date of the sample delivered
  due     : Option Nat := none        -- date of the sample last due
  missRun : Nat := 0
  lost    : Bool := false
  deriving DecidableEq, Repr

/-- Measurement state outside the registers (chapter 07). -/
structure MeasSt where
  scan     : Option SarScan := none
  pend     : Option Nat := none       -- trigger Timecount of the pending scan (R220)
  scanSeq  : BitVec 16 := 0           -- sequence number of the next scan (R221)
  tickDiv  : Nat := 0                 -- marks since the last tick trigger (R220)
  tickDue  : Option Nat := none       -- Timecount of the tick trigger now due
  latest   : KeyList SarResult := []  -- newest result per SNAP index
  ow       : KeyList OpenWire := []
  winArmed : BitVec 22 := 0x3FFFFF    -- window comparators armed (R229)
  plausRun : KeyList Nat := []        -- consecutive failing scans of channels 17 to 21 (R228)
  cal      : Option CalRun := none
  calA0    : Option (Nat × Rat) := none -- channel and average of a completed POINT 0 (R223)
  stuck    : BitVec 24 := 0           -- stuck condition of SD channels (R216)
  div      : Nat := 50                -- divider of the modulator clocks in force (R214, R248)
  clkEn    : Nat := 0                 -- modulator clocks that run
  sdNext   : Option (Nat × Nat) := none -- DIV and CLKEN that take effect at the next mark (R58, R248)
  sdLate   : Option (Nat × Nat) := none -- at the mark after it
  sv       : KeyList SvSt := []
  deriving DecidableEq, Repr

/-- The tick output record of a chain (R242), with the age in ns. -/
structure ChainRec where
  value  : F32 := 0
  qual   : BitVec 3 := 5
  path   : Bool := false
  bank   : Bool := false
  fading : Bool := false
  age    : BitVec 24 := 0
  deriving DecidableEq, Repr

/-- One output of a chain's fine or fast path: value, quality and the Timecount of its last input. -/
structure ChainOut where
  value : F32 := 0
  qual  : BitVec 3 := 5
  at_   : Nat := 0
  bank  : Bool := false               -- bank of the value; during a fade the incoming one (R242)
  fading : Bool := false              -- the value is a blend
  deriving DecidableEq, Repr

/-- A sinc decimator (R237, R240): its integrators, its combs, and the bits since its last output. -/
structure Cic where
  a1 : Int := 0
  a2 : Int := 0
  a3 : Int := 0
  d1 : Int := 0
  d2 : Int := 0
  d3 : Int := 0
  n  : Nat := 1                       -- an output falls due when it reaches the decimation; the first one comes a bit early
  outs : Nat := 0                     -- outputs since the reset
  deriving DecidableEq, Repr

/-- A cross-fade in progress (R251). -/
structure Fade where
  target : Bool
  len    : Nat
  k      : Nat := 0
  from_  : Nat                        -- commit mark Timecount: the first faded output's last input follows it
  deriving DecidableEq, Repr

/-- A swap request (R251). -/
structure SwapReq where
  target : Bool
  len    : Nat
  deriving DecidableEq, Repr

/-- A threshold comparator's running state (R247). -/
structure ThrSt where
  count : Nat := 0
  armed : Bool := true
  deriving DecidableEq, Repr

/-- A grid-locked sample (R245). -/
structure GridSample where
  index : Nat
  value : F32
  qual  : BitVec 3
  deriving DecidableEq, Repr

/-- A filter chain's running state (chapter 08). -/
structure ChainSt where
  running  : Bool := false
  resetAt  : Nat := 0                 -- Timecount of the last synchronising reset mark
  fineCnt  : Nat := 0                 -- fine outputs since the reset
  fastCnt  : Nat := 0                 -- fast outputs since the reset
  sinc3    : Cic := {}                -- decimator of the fine path
  sinc2    : Cic := {}                -- of the fast path
  medWin   : List Rat := []           -- median window, newest first (R238)
  firLine  : List Rat := []           -- FIR input line, newest first
  fresh    : Nat := 0                 -- inputs since the last fine output (SAR chains)
  lineQual : List (BitVec 3) := []    -- qualities of the FIR inputs, newest first
  fines    : List ChainOut := []      -- newest fine outputs, newest first
  fast     : Option ChainOut := none  -- newest completed fast output
  bankB    : Bool := false            -- active bank (R250)
  fade     : Option Fade := none
  queued   : Option SwapReq := none
  done     : List (Bool × Nat) := []  -- FADE_DONE events to come: bank, and fine outputs from which records are wholly of it (R251)
  thr0     : ThrSt := {}
  thr1     : ThrSt := {}
  freq     : F32 := 0                 -- f held until the next mark (R245)
  pos      : Rat := 0
  gridJ    : Nat := 0
  gridLate : Option Nat := none       -- index of a sample at phase 64, emitted one output later
  grid     : Option GridSample := none -- emitted since the last mark
  gridAt   : Option GridSample := none -- emitted in the tick that the last mark ended
  lastFine : Option F32 := none       -- last FINE record value since the reset (R262)
  rec_     : ChainRec := {}           -- record latched at the last mark
  resetReq : Bool := false            -- a reset falls due at the next mark (R248)
  resetLate : Bool := false           -- one falls due at the mark after it, asked for within the fence (R58)
  deriving DecidableEq, Repr

/-- The outputs of a loop slot with their quality (R257, R262). -/
structure SlotOut where
  y0   : F32 := 0
  y1   : F32 := 0
  y2   : F32 := 0
  y3   : F32 := 0
  qual : BitVec 3 := 0
  deriving DecidableEq, Repr

/-- Persistent state of a loop slot (R257). -/
structure SlotSt where
  x1     : F32 := 0                   -- PI integrator, PR x1, LEADLAG e1
  x2     : F32 := 0                   -- PR x2, LEADLAG y1
  theta  : F32 := 0                   -- θ of PHASE (R263)
  out    : SlotOut := {}              -- Y0 to Y3
  fine   : SlotOut := {}              -- the outputs as last written with quality FINE (R262)
  mem    : KeyList F32 := []          -- REP memory, 0.0 where unlisted (R275)
  jlast  : Nat := 127                 -- REP last index
  repClamps : Nat := 0                -- clamped memory writes in this period (R278)
  repRaised : Bool := false
  satRun : Nat := 0                   -- consecutive clamped runs (R274)
  satRaised : Bool := false
  deriving DecidableEq, Repr

/-- A reference mailbox (R280, R281). -/
structure RefMbx where
  written : QVal := {}                -- value and quality last written, or waiting for the next latch
  fresh   : Bool := false             -- written since the last latch
  late    : Option QVal := none       -- the newest write within the fence of the next mark
  latched : QVal := {}                -- as latched at the last mark
  fine    : Option F32 := none        -- value last latched with quality FINE (R262)
  age     : Nat := 0                  -- consecutive marks without a write
  deriving DecidableEq, Repr

/-- The configuration an oscillation detector works with (R284). -/
structure OscCfg where
  slot : Nat := 0
  en   : Bool := false
  mreq : Nat := 4
  flo  : F32 := 0
  fhi  : F32 := 0
  amp  : F32 := 0
  hys  : F32 := 0
  deriving DecidableEq, Repr

/-- An oscillation detector's running state (R285). Instants are in 1/16 ns of Timecount. -/
structure OscSt where
  cfg      : OscCfg := {}
  dirty    : Bool := false            -- a write applies from the next mark (R284)
  mean     : F32 := 0
  env      : F32 := 0
  zPrev    : F32 := 0
  zAt      : Int := 0                 -- instant of the run that gave it
  armedLow : Bool := false
  tPrev    : Int := 0
  cnt      : Nat := 0
  declared : Bool := false
  deriving DecidableEq, Repr

/-- The sequencer's and the selector's running state of one arm (chapters 10 and 11). -/
structure ArmDyn where
  level    : Int := 0                 -- level at the end of the last built window (lprev)
  rho      : F64 := 0                 -- residual ρ
  refLast  : F32 := 0                 -- r0: reference of the last sent window
  trimEnd  : Option (Tick × Int) := none -- window and effective end of the last trim pulse, in quarter symbols
  heldRun  : Nat := 0                 -- consecutive windows with a HELD reference (R293)
  unusable : Bool := false            -- the last window's reference was unusable
  clamped  : Bool := false            -- the last window was clamped (R294)
  on       : Bool := false            -- a DEBLOCKED window has been built
  first    : Bool := true             -- no ramp: first DEBLOCKED window, or after an unusable reference (R295)
  iMark    : F32 := 0                 -- arm current of the last mark, 0.0 where BAD or none (R321)
  iPrev    : F32 := 0                 -- that of the mark before it
  short    : Bool := false            -- the ARM_SHORTFALL condition holds (R335)
  onsets   : List Tick := []          -- short-class onsets not yet counted in a raise (R345)
  lvs      : List Word := [0x1400000, 0, 0, 0] -- ARMSTAT, RES, VL, REF of the last completed assignment stage (R312)
  sel      : List Word := [0, 0, 0, 0] -- ARMSTAT, THR, TMEAN, REF of the last completed selection (R339)
  lvsRun   : List Word := [0x1400000, 0, 0, 0] -- of the phase that runs
  selRun   : List Word := [0, 0, 0, 0]
  deriving DecidableEq, Repr

end Sys2Proof.Machine
end

