-- ==== Sys2Proof/Machine/TypesNet.lean ====
section
/-! DEFINITION. The types of the station networks, secure boot, supplies and debug (chapters 19, 20, 22 and 23):
received frames and PTP messages, port and GOOSE state, fuses, flash copies, rails, feeds and domains. -/

namespace Sys2Proof.Machine

/-- The data an Announce message carries (R521, R523), compared in this order, and the UTC offset (R89). -/
structure Announce where
  prio1    : Nat := 255
  clkClass : Nat := 255
  accuracy : Nat := 0xFE
  variance : Nat := 0xFFFF
  prio2    : Nat := 255
  gmId     : BitVec 64 := 0
  steps    : Nat := 0
  sender   : BitVec 64 := 0
  utc      : Word := 37
  deriving DecidableEq, Repr

/-- A PTP message as a port takes it (R521); times are in 1/64 ns. -/
inductive PtpMsg where
  | announce (a : Announce)
  | sync (seq : BitVec 16) (twoStep : Bool) (origin corr : Int)
  | followUp (seq : BitVec 16) (origin corr : Int)
  | pdelayReq (seq : BitVec 16)
  | pdelayResp (seq : BitVec 16) (t2 : Int)
  | pdelayRespFollow (seq : BitVec 16) (t3 corr : Int)
  deriving DecidableEq, Repr

/-- Validity of a sampled or GOOSE value's quality (R233, R528). -/
inductive Validity where
  | good | questionable | invalid
  deriving DecidableEq, Repr

/-- One value of a sampled-value ASDU (R231). -/
structure SvVal where
  val      : BitVec 32
  validity : Validity
  test     : Bool
  deriving DecidableEq, Repr

/-- A sampled-value ASDU (R231). -/
structure SvAsdu where
  appid    : BitVec 16
  svid     : List Byte
  smpCnt   : Nat
  smpSynch : Nat
  vals     : List SvVal
  deriving DecidableEq, Repr

/-- The type of a GOOSE dataset member (R527). -/
inductive GooseType where
  | boolean | int32 | float32 | other
  deriving DecidableEq, Repr

/-- A point of a GOOSE dataset (R527). -/
structure GoosePoint where
  typ      : GooseType
  val      : Word
  validity : Validity
  deriving DecidableEq, Repr

/-- A GOOSE message (R527). `ack` is its last member, absent when the dataset has another form. -/
structure GooseMsg where
  appid   : BitVec 16
  gocbRef : List Byte
  confRev : BitVec 32
  ndsCom  : Bool
  test    : Bool
  stNum   : BitVec 32
  sqNum   : BitVec 32
  ttl     : Nat                       -- timeAllowedToLive, ms
  points  : List GoosePoint
  ack     : Option (BitVec 32)
  deriving DecidableEq, Repr

/-- What a received Ethernet frame carries (chapter 19). -/
inductive NetPayload where
  | sv (asdus : List SvAsdu)
  | goose (g : GooseMsg)
  | telegram (bytes : List Byte)
  | ptp (domain : BitVec 8) (m : PtpMsg)
  | other
  deriving DecidableEq, Repr

/-- A received Ethernet frame (R516, R519). `trailer` is the LAN named (true: B) and SeqNr of a redundancy trailer. -/
structure NetFrame where
  da      : BitVec 48
  sa      : BitVec 48
  len     : Nat
  fcsOk   : Bool
  trailer : Option (Bool × BitVec 16)
  raw     : Int                       -- raw ingress timestamp, 1/64 ns (R525)
  payload : NetPayload
  deriving DecidableEq, Repr

/-- A GOOSE message as the device sends it (R529, R530); `vlan` is the priority and VID of its tag. -/
structure GoosePdu where
  da      : BitVec 48
  appid   : BitVec 16
  vlan    : Option (BitVec 3 × BitVec 12)
  gocbRef : List Byte
  goId    : List Byte
  datSet  : List Byte
  confRev : BitVec 32
  stNum   : BitVec 32
  sqNum   : BitVec 32
  ttl     : Nat                       -- timeAllowedToLive, ms
  points  : List (Word × BitVec 3)
  oseq    : Word
  deriving DecidableEq, Repr

/-- A frame the device sends (R518, R521, R529). -/
inductive NetSend where
  | supervision
  | ptp (domain : BitVec 8) (m : PtpMsg)
  | goose (g : GoosePdu)
  deriving DecidableEq, Repr

/-- A port's running state (R515 to R525). -/
structure PortSt where
  best      : Option Announce := none   -- the better master heard on this port (R523)
  bestAt    : Nat := 0                   -- Timecount of its newest Announce
  timedOut  : Bool := false              -- the port has reached its announce timeout
  syncWait  : Option (BitVec 16 × Int) := none -- two-step Sync: sequence and corrected ingress
  pdSeq     : BitVec 16 := 0
  pdT1      : Option Int := none         -- corrected egress of the newest Pdelay_Req
  pdT2      : Option (BitVec 16 × Int × Int) := none -- sequence, t2, t4 of the response
  mpd       : Option Int := none         -- mean path delay, 1/64 ns
  txSeq     : BitVec 16 := 0             -- sequence of the next Sync sent
  offset    : Option Int := none         -- last offset measured, ns
  deriving DecidableEq, Repr

/-- A GOOSE subscription's running state (R527, R528). -/
structure GooseSub where
  stNum    : Option (BitVec 32) := none
  sqNum    : BitVec 32 := 0
  points   : List GoosePoint := []
  expires  : Option Nat := none          -- Timecount at which the points become BAD
  expired  : Bool := false
  deriving DecidableEq, Repr

/-- A GOOSE publication's running state (R530). -/
structure GoosePub where
  stNum  : BitVec 32 := 0
  sqNum  : BitVec 32 := 0
  nextAt : Option Nat := none            -- Timecount of the next repeat
  pubAt  : Nat := 0                      -- Timecount of the publication
  oseq   : BitVec 16 := 0
  points : List (Word × BitVec 3) := []
  deriving DecidableEq, Repr

/-- The station networks outside the registers (chapter 19). -/
structure NetSt where
  ports  : KeyList PortSt := []
  seqNr  : KeyList (BitVec 16) := []     -- per pair (R518)
  dups   : KeyList (List (BitVec 48 × BitVec 16 × Nat)) := [] -- per pair, newest first (R519)
  subs   : KeyList GooseSub := []
  pubs   : KeyList GoosePub := []
  deriving DecidableEq, Repr

/-- A signed image's header as far as the device keeps it (R537). -/
structure ImgInfo where
  epoch   : Nat := 0
  version : Word := 0
  compat  : BitVec 16 := 0
  hash    : List Byte := []
  deriving DecidableEq, Repr

/-- A copy in the QSPI flash with its directory entry (R540, R543). -/
structure FlashCopy where
  image   : List Byte := []              -- header and body; empty or invalid where nothing usable stands there
  wseq    : BitVec 32 := 0
  trial   : Bool := false
  tries   : Nat := 0
  deriving DecidableEq, Repr

/-- What the device takes from a board descriptor. The layout of its body is not in the spec (DESIGN CHOICE, log entry 9). -/
structure BoardDesc where
  eq       : List (BitVec 64)            -- the 16 equalisation entries (R119)
  macs     : List (BitVec 48)            -- one MAC address per pair (R516)
  txDly    : List (BitVec 16)            -- TXDLY of the four ports, 1/64 ns (R525)
  rxDly    : List (BitVec 16)
  modDly   : List Nat                    -- transmitter and receiver module delays of each star lane, 1/16 symbol (R161)
  ratioK   : List Rat                    -- divider ratio K of the two feeds (R573)
  vnom     : List Nat                    -- nominal voltage of the two feeds, V (R573)
  deriving DecidableEq, Repr, Inhabited

/-- A flash write in progress (R543, R544). -/
structure FlashWrite where
  kind  : Nat
  copyB : Bool
  image : List Byte
  order : Nat                            -- order of acceptance of its command
  deriving DecidableEq, Repr

/-- Secure boot and identity outside the registers (chapter 20). -/
structure SecSt where
  prog     : BitVec 8 := 0x0F            -- programmed slots (R533)
  revoked  : BitVec 8 := 0
  hashes   : KeyList (List Byte) := []   -- the slots' hashes; a vendor slot not listed holds the factory's (Config.vendorHash)
  keyData  : KeyList Word := []          -- SEC_KEYDATA0 to 7
  burning  : Option (Nat × List Byte) := none -- slot and hash of a burn in progress (R533)
  floors   : KeyList Nat := []           -- floor of kind 1, 2 and 4
  flash    : KeyList FlashCopy := []     -- 0, 1: firmware A, B; 2, 3: board descriptor A, B
  writing  : List FlashWrite := []
  stage    : KeyList (List Byte) := []   -- staging area per kind (R543)
  fw       : Option ImgInfo := none      -- running device firmware
  bd       : Option ImgInfo := none      -- board descriptor in use
  board    : Option BoardDesc := none
  booted   : Bool := false               -- the ROM has loaded a firmware that has not yet started (R540)
  engineAt : Nat := 0                    -- Timecount of the last engine step (R572)
  fwCopyB  : Bool := false               -- the firmware copy loaded is copy B
  deriving DecidableEq, Repr

/-- A battery feed's running state (R574, R575). Voltages are in mV at the feed. -/
structure FeedSt where
  state  : Nat := 0
  mv     : Int := 0
  qualAt : Option Int := none            -- qualified without a break since (before a reset of Timecount: negative)
  polg   : Bool := false
  deriving DecidableEq, Repr

/-- Package and power state outside the registers (chapter 22). -/
structure PwrSt where
  feeds    : KeyList FeedSt := []
  request  : KeyList Nat := []           -- domains asked to power up, since when (R571)
  held     : List (Nat × Word) := []     -- register writes held for a domain that is off, oldest first (R584)
  profileAt : Option Nat := none         -- Timecount at which the Watch profile returns after a cancel (R570)
  dramHeld : List Nat := []              -- orders of the DRAM commands that wait for PD10 (R572)
  thermN   : Bool := true                -- level of THERM_N
  tempOver : Nat := 0                    -- threshold last crossed: 0, 1 WARN, 2 OVER, 3 THERM
  supplyReset : Bool := false            -- RESET was entered by R568, and the device boots again once the rails are good
  deriving DecidableEq, Repr

/-- Pins the device drives or latches that no register shows (R560, R564). -/
structure PinSt where
  failN   : Bool := true
  hbOut   : Bool := false
  txdisG0 : Bool := true
  txdisG1 : Bool := true
  grantEcho : Bool := false
  straps  : BitVec 3 := 0                -- DBG_EN, TEST_EN, QSPI_SLOW as tied on the board
  deriving DecidableEq, Repr

end Sys2Proof.Machine
end

