-- ==== Sys2Proof/Machine/TypesDove.lean ====
section
/-! DEFINITION. The types of duplex operation (chapter 13): the records of the Dovetail link by what they say, its segments, digests,
and the duplex state. The byte layout of a record's payload is not in the spec (DESIGN CHOICE, log entry 25). -/

namespace Sys2Proof.Machine

/-- What a compute phase works on, as it stood when the phase became due (R33, R50). -/
structure PhaseIn where
  window  : Tick                       -- the window the phase computes (n + 2)
  conv    : ConvState
  watch   : Bool
  cells   : KeyList Cell
  tabs    : KeyList (List Byte)
  markAt  : Nat                        -- Timecount of mark n
  tlen    : Nat                        -- tick length in force, ns
  chains  : KeyList ChainSt            -- with the records and grid-locked samples latched at mark n
  mbx     : KeyList RefMbx             -- with what was latched at mark n
  sv      : KeyList SvSt               -- sampled values as delivered at the mark
  refHold : Nat                        -- LVS_CFG.REFHOLD at mark n (R311)
  iPrev   : KeyList F32 := []          -- arm currents of the mark before mark n (R321)
  shedIn  : Option (BitVec 64 × Bool) := none -- shed set of the partner's PHASE record, and whether it sheds (R55)
  deriving DecidableEq, Repr

/-- What the compute phase of a window started from, kept to take the window back (R53, R388). -/
structure Checkpoint where
  window : Tick
  deb    : Bool
  cells  : KeyList Cell
  arms   : KeyList ArmDyn
  syms   : Nat
  inp    : PhaseIn
  slots  : KeyList SlotSt
  osc    : KeyList OscSt
  deriving DecidableEq, Repr

/-- A closed upstream window that waits for its TICKIN (R385): what the device had at its close, with its reports; and, once the next
mark has been made, the changes of AVAIL that took effect at it. -/
structure HeldClose where
  inp : PhaseIn
  due : Option (List AvailChange) := none
  deriving DecidableEq, Repr

/-- Remote I/O of one station as the active device holds it (R385). -/
structure StationIn where
  inputs : List Word
  quals  : List (BitVec 3)
  arrived : Nat
  lost   : Bool
  deriving DecidableEq, Repr

/-- TICKIN: the inputs of one mark (R385). -/
structure TickIn where
  mark     : Tick
  valid    : List Nat                     -- addresses whose reports the active device holds valid
  patches  : List (Nat × List Byte) := [] -- report payloads sent along
  recs     : KeyList ChainRec
  grids    : KeyList GridSample
  sar      : KeyList SarResult
  sv       : KeyList (List QVal)          -- sampled values as delivered at the mark
  mbx      : KeyList QVal                 -- reference mailboxes as latched at the mark
  stations : KeyList StationIn
  goose    : KeyList (List GoosePoint)
  shedding : Bool := false                -- the active device sheds deferrable work (R52, R55)
  deriving DecidableEq, Repr

/-- What an EVENT record says (R382). -/
inductive DoveEvent where
  | reaction (sev : Nat)
  | conv (c : ConvState)
  | safetyReset
  | rateChange (toWatch : Bool) (switchAt : Nat)
  | frac (f : BitVec 24)
  deriving DecidableEq, Repr

/-- One piece of a SLICE record (R395). -/
inductive SlicePiece where
  | table (t i : Nat) (e : List Byte)
  | cell (a : Nat) (c : Cell)
  | slot (k : Nat) (x : SlotSt)
  | osc (d : Nat) (x : OscSt)
  | arm (a : Nat) (x : ArmDyn)
  | idata (d : List Byte)
  | retain (seg : Nat) (c : RetainCopy)
  | forces (l : List VarForce)
  | edges (l : KeyList EdgeMem)
  | taskNext (t : Nat) (next : Tick)
  | ctx (c : Nat) (x : FmnCtx)
  | lane (l : Nat) (planVer : BitVec 16)
  | conv (c : ConvState) (watch lanesOn : Bool)
  | prog (p : ProgState)
  deriving DecidableEq, Repr

/-- A record of the Dovetail link by what it says (R382). -/
inductive DoveRec where
  | tickin (t : TickIn)
  | cmd (c : HostCmd) (tick : Tick)
  | phase (window : Tick) (shed : BitVec 64) (shedding : Bool)
  | event (mark : Tick) (e : DoveEvent)
  | mbx (window : Tick) (boxes : KeyList MbxFrame)
  | digest (window : Tick) (crc : BitVec 64) (launchedPrev : Bool)
  | nak (seqs : List (BitVec 16))
  | slice (pieces : List SlicePiece) (cut : Option Tick)
  | status (role : Role) (current takeoverOk : Bool) (images : List Byte) (compat : BitVec 16)
  deriving DecidableEq, Repr

/-- Type of a record (R382). -/
def DoveRec.rtype : DoveRec → Nat
  | .tickin _ => 1
  | .cmd _ _ => 2
  | .phase _ _ _ => 3
  | .event _ _ => 4
  | .mbx _ _ => 5
  | .digest _ _ _ => 6
  | .nak _ => 7
  | .slice _ _ => 8
  | .status _ _ _ _ _ => 9

/-- A Dovetail segment as received (R380): its header, whether its CRC is good, and what its record says, which is taken from
the last segment of the record. -/
structure DoveFrame where
  rtype : Byte
  last  : Bool
  sseq  : BitVec 16
  rtick : BitVec 16
  crcOk : Bool
  holds : DoveRec
  deriving DecidableEq, Repr

/-- A digest of one window (R386). -/
structure Digest where
  window : Tick
  crc    : BitVec 64
  deriving DecidableEq, Repr

/-- Duplex state outside the registers (chapter 13). -/
structure DuplexSt where
  grant      : Bool := false         -- level of the GRANT ball
  grantLowAt : Option Nat := none    -- Timecount at which GRANT fell while ACTIVE (R374)
  released   : Bool := false         -- RELEASE set for a planned switch-over (R392)
  toResync   : Bool := false         -- a STANDBY device whose link was lost goes to RESYNC at the next mark (R394)
  rxNext     : Option (BitVec 16) := none -- next SSEQ expected; the first segment after the link came up gives it (R381)
  rxHeld     : List DoveFrame := []  -- segments beyond a gap
  nakked     : List (BitVec 16 × Tick) := [] -- SSEQ values asked for, with the tick in which (R381)
  txNext     : BitVec 16 := 0
  txKept     : List (BitVec 16 × Tick × DoveRec × List Byte) := [] -- segments kept for 2 ticks (R381), newest first
  digests    : List Digest := []     -- own digests, newest first
  partner    : List Digest := []     -- partner's digests, newest first
  inTime     : List (Tick × Bool) := [] -- windows with whether their own digest was complete by the mark, newest first (R387)
  launched   : List Tick := []       -- windows with a LAUNCHED confirmation, newest first (R388)
  checks     : List Checkpoint := [] -- of the last phases, newest first (R388)
  unsentWins : List Tick := []       -- windows a takeover counted as unsent (R388)
  compared   : Nat := 0              -- consecutive matching digests in resynchronisation (R395)
  currentRun : Nat := 0              -- consecutive windows of being current in it
  shadow     : Bool := false         -- a RESYNC device executes in shadow (R395)
  closed     : List HeldClose := []  -- closed upstream windows whose TICKIN has not come, oldest first (R385)
  mirror     : Option TickIn := none -- newest TICKIN
  shedFrom   : List (Tick × BitVec 64 × Bool) := [] -- PHASE records, newest first (R55)
  mbxFrom    : List (Tick × KeyList MbxFrame) := [] -- MBX records, newest first
  events     : List (Tick × DoveEvent) := [] -- EVENT records for marks to come, oldest first
  cutAt      : Option Tick := none   -- mark named by the cut record (R395)
  copied     : Bool := false         -- the partner has been sent the state and has not failed since
  told       : Bool := false         -- IMAGE_MISMATCH posted for this partner
  copyDue    : Bool := false         -- the state is copied to the partner at the next mark (R395)
  statusAt   : Nat := 0              -- Timecount of the last valid referee status frame (R379)
  laneLate   : Bool := false         -- REFEREE LANE raised since then
  statusGrant : Option Bool := none  -- the unit's GRANT bit in it
  disSince   : Option Nat := none    -- GRANT ball and status bit differ since
  disDone    : Bool := false         -- REFEREE DISAGREE raised for that difference
  pTakeover  : Bool := false         -- the partner's TAKEOVER_OK in its last STATUS
  notBefore  : Nat := 0              -- no frame leaves before this Timecount after a takeover (R388, R392)
  blkWatch   : Nat := 0              -- ticks in which BLKSET is still watched (R390)
  yieldTold  : Bool := false         -- the extra heartbeat of YIELD has been sent (R377)
  unsent     : Bool := false         -- windows without a frame follow R388 and R389 until the first launch
  measRun    : KeyList Nat := []     -- marks a chain has diverged (R385)
  deriving DecidableEq, Repr

end Sys2Proof.Machine
end

