-- ==== Sys2Proof/Machine/TypesOut.lean ====
section
/-! DEFINITION. The types of compute phases, of accepted batches, of what the commands bring in from outside (bursts,
segments, frames), and of what the block sends out: symbols on its lanes, frames, ring entries and pin changes. -/

namespace Sys2Proof.Machine

/-- A compute phase that runs or has ended and waits for its launch point (R43, R48). -/
structure Phase where
  window  : Tick
  conv    : ConvState
  watch   : Bool
  markAt  : Nat                        -- Timecount of the mark of the tick it belongs to
  tlen    : Nat                        -- tick length, ns
  launch  : Nat                        -- launch point in symbols of the next tick, as it stood at the start (R68)
  slots   : KeyList SlotCmd            -- by cell address; an unlisted slot carries BLOCK at instant 0
  mbx     : KeyList MbxFrame           -- by lane; no operation where unlisted
  mbxOps  : List (Nat × MbxOp) := []   -- the operations taken for them, with their lanes
  disc    : List Nat                   -- lanes whose frame is a discovery frame (R160)
  lost    : Bool := false              -- it passed its latest launch unfinished (R49)
  taken   : Bool := false              -- its window has been taken back already (R53)
  back    : Checkpoint                 -- as before the phase, for a lost window (R53, R306)
  deriving DecidableEq, Repr

/-- A staged batch admitted for a commit mark (R56, R58, R499). -/
structure Batch where
  mark    : Tick
  order   : Nat
  body    : List Byte
  staged  : Nat := 0                   -- bytes written to the shadow copies
  ctx     : Nat
  tag     : BitVec 16
  deriving DecidableEq, Repr

/-- What the line of a star lane brings in an upstream slot (R113, R117): the bits at the LNnn_RX balls once the clock recovery has
locked, and when a K27.7 found in them arrives. -/
structure Burst where
  arr     : Int                        -- arrival of its K27.7 against nominal, 1/16 full-rate symbol
  bits    : List Bool
  deriving DecidableEq, Repr

/-- What the referee lane brings with a status frame (R379): the bits at the ball since the last ones. -/
structure RefFrame where
  bits    : List Bool
  deriving DecidableEq, Repr

/-- An access outside the bench regions, or a write to code (R406, R428): its kind and its address. -/
structure BadAccess where
  access : BitVec 3
  addr   : BitVec 64
  deriving DecidableEq, Repr

/-- What the block sends out in one command. -/
inductive Emission where
  | ordered (pos : Nat) (syms : List Sym)               -- an ordered set on every star lane, at a symbol counted from the mark (R134)
  | doveSet (syms : List Sym)                           -- the tick-mark set that opens a tick on the Dovetail lanes (R135, R380)
  | tickOut                                             -- pulse on TICK_OUT (R564)
  | blockSet                                            -- an injected block set, three K30.7, on every star lane (R106, R138, R346)
  | pattern (lane : Nat) (prbs31 : Bool)                -- a lane sends PRBS-7 or PRBS-31 raw in place of its traffic (R122)
  | echoed (lane : Nat) (bits : List Bool)              -- a point-to-point lane in retransmit sends back what it has received
  | lineSet (lane : Nat) (e : EqSet)                    -- a lane takes its line settings (R119, R121, R131)
  | lnbrst (lane : Nat) (first slots width : Nat)       -- LNBRST high in every upstream slot of the tick: first symbol from the mark, 78 apart (R116)
  | frame (lane : Nat) (bytes : List Byte)              -- a command frame (R140)
  | abandoned                                           -- the frames being sent are cut short (R106, R347)
  | heartbeat (bytes : List Byte)                       -- on the referee lane (R377)
  | dove (sseq : BitVec 16) (r : DoveRec) (bytes : List Byte) -- a segment of a Dovetail record, between its K27.7 and K29.7 (R380, R382)
  | net (port : Nat) (sa : Option (BitVec 48)) (rct : Option (BitVec 16)) (f : NetSend) -- an Ethernet frame on one port, with its source address (R516) and the SeqNr of its PRP trailer
  | telegram (conn : Nat) (rct : BitVec 16) (bytes : List Byte) -- a safe telegram, both ports of the station bus (R362)
  | ringEntry (ctx : Nat) (index : Nat) (bytes : List Byte)  -- a completion-ring entry (R490, R491)
  | hostData (ctx : Nat) (haddr : BitVec 64) (bytes : List Byte) -- a result buffer
  | msix (ctx : Nat) (vector : Nat)                     -- an MSI-X message (R508)
  deriving DecidableEq, Repr

end Sys2Proof.Machine
end

