-- ==== Sys2Proof/Syntax.lean ====
section
/-! DEFINITION. The commands of the block: one constructor per row of the table of operations and events, in the
table's order. The operands are the model's (DESIGN CHOICE, log entry 2): what the world outside supplies with the command. -/

namespace Sys2Proof

open Sys2Proof.Machine

/-- The supervisor's own readings that a scan's internal channels are compared with (R228): VCORE, VIO18 and VAON in mV,
the die temperature in 1/16 °C, and the battery feeds in 0.1 V. -/
structure SarMonitors where
  rails : List Int
  die   : Int
  batt  : List Int
  deriving DecidableEq, Repr

/-- What the monitor of REFCLK_B finds (R81): whether it is good, and its deviation from REFCLK_A while both are. -/
structure RefSeen where
  good : Bool
  vsA  : BitVec 24
  deriving DecidableEq, Repr

/-- What stands beside the main PLL's lock qualification: whether the internal detector reports unlock (`slip`, R76), and whether SYMCLK_IN is
good (R87). -/
structure PllSeen where
  slip  : Bool
  symOk : Bool
  deriving DecidableEq, Repr

/-- What the boot ROM's checks of the part find: the ECC of the fuses and the supervisor lockstep (R540), and that the flash can be read
(R550). -/
structure BootChecks where
  ecc   : Bool
  flash : Bool
  deriving DecidableEq, Repr

/-- Bits on a Dovetail lane, and the record whose bytes they are (R380). -/
structure SegmentBits where
  lane  : Fin 4
  bits  : List Bool
  holds : DoveRec
  deriving DecidableEq, Repr

/-- A PTP message a port sends at its interval (R521). -/
inductive PtpKind where
  | sync | announce | pdelayReq
  deriving DecidableEq, Repr

/-- How the contexts are reset (R512). -/
inductive ResetKind where
  | flrPf
  | flrVf (vf : CtxIx)
  | vfDisable
  | perst
  deriving DecidableEq, Repr

/-- The blocks with a latch register but for TIM (R587). -/
inductive LatchBlock where
  | mea | lvs | sel | fcl | fmn | ldg
  deriving DecidableEq, Repr

/-- The operations and events of the FV4096 (opcode_table.json). -/
inductive Instr where
  /-- A tick mark falls due at a Timecount multiple of the tick length and leaves all star lanes as the tick-mark
  ordered set, opening execution window n. (R36) -/
  | tickMark
  /-- On the bypass clock a tick boundary is treated as a mark that is not sent; commits and triggers act, and class 9
  commands due there complete INHIBITED. (R85) -/
  | tickMarkNotSent
  /-- A mailbox not written for STALE consecutive marks is latched with quality HELD and shown in LPE_STALE. (R281) -/
  | mailboxStale (m : Fin 64)
  /-- After SV_HOLD consecutive missing samples the value becomes BAD and SV_LOSS is raised. (R233) -/
  | svLoss (stream : Fin 16)
  /-- An extra heartbeat of KIND 0x2 is sent at once whenever YIELD or RELEASE is set. (R377) -/
  | extraHeartbeat
  /-- At the switch mark of a rate change the lanes change rate, the numbering changes and two all-BLOCK tick-engine
  frames follow. (R131) -/
  | switchMark
  /-- At the first Watch mark at least 10 Watch ticks after the lasers light, the converter becomes WATCH and the
  first tick mark is sent. (R129) -/
  | watchMarkAfterLaneStart
  /-- At the close of the upstream window the per-cell records of the tick are written and the compute phase for
  window n+2 may start. (R34) -/
  | upstreamWindowClose
  /-- Reports missing in 3 consecutive ticks make an AVAILABLE cell MISSING and raise CELL_MISS. (R21) -/
  | cellMiss (cell : CellAddr)
  /-- Valid reports in 16 consecutive ticks return a MISSING cell to AVAILABLE. (R21) -/
  | missingCellRecovered (cell : CellAddr)
  /-- A sample the staging buffer cannot pass to DRAM is lost, GAP is set and LEDGER_OVERFLOW raised. (R482) -/
  | ledgerSampleLost (channelStream : Bool)
  /-- After REF_TICKS windows of refresh bypass the cell returns to AVAILABLE. (R333) -/
  | refreshEnd (cell : CellAddr)
  /-- A compute phase completes; its frames leave at the launch point or at once with TICK_SLIP, or the window is
  lost. (R48) -/
  | computePhaseEnd (sym : Nat)
  /-- At the launch point the frames of a finished phase leave all 64 lanes in the same symbol. (R43) -/
  | launchPoint
  /-- A phase not finished by launch plus the effective slip limit loses its window, and TICK_OVERRUN is raised at its
  end. (R49) -/
  | slipLimitExpiry
  /-- Consecutive windows without a frame reaching MISS_LIMIT force a BLOCK reaction with source TICK_OVERRUN. (R54)
  -/
  | missLimitReached
  /-- An upstream burst is received, measured and judged as a valid report or a missing one. (R152) -/
  | burstReceived (lane : LaneIx) (slot : Fin 128) (burst : Burst)
  /-- CONFIRM consecutive valid, aligned reports complete ranging, clear RVOID and post RANGED. (R164) -/
  | rangingComplete (cell : CellAddr)
  /-- Ranging not complete within 8 × CONFIRM ticks of the apply tick sends PARK with flag and posts CONFIRM_FAIL.
  (R164) -/
  | confirmFail (cell : CellAddr)
  /-- When a ranged cell's tracking count reaches 2^(TRACK_LOG+3), the mean error may update delays and send RANGE.
  (R158) -/
  | trackingUpdate (cell : CellAddr)
  /-- A cell answering BUSY that gives no final reply within 2,048 ticks leads to resend or NO_REPLY. (R167) -/
  | mailboxBusyTimeout (lane : LaneIx) (tag : Byte)
  /-- A step of cell firmware distribution sends FW_BEGIN, FW_DATA blocks, queries or resends. (R169) -/
  | fwDistributionStep
  /-- No burst decoded for LOS_TICKS ticks on an enabled lane raises LANE_LOS. (R127) -/
  | laneLos (lane : LaneIx)
  /-- Invalid code groups and disparity errors reaching CODE_THR in one tick raise LANE_CODE. (R128) -/
  | laneCode (lane : Fin 69)
  /-- A cell echo ends after TICKS ticks or on leaving WATCH, READY or BLOCKED, sending ECHO_END and clearing
  ECHO_BUSY. (R125) -/
  | echoEnd (lane : LaneIx)
  /-- A BLOCK or TRIP reaction requests a block ordered set, injected within 20 ns on every star lane. (R346) -/
  | blockSetRequest
  /-- A filter chain completes a fast-path output, evaluated by protection and threshold comparators. (R240) -/
  | fastPathOutput (chain : Fin 40) (bits : List Bool)
  /-- A filter chain completes a fine-path output, which may emit a grid-locked sample and advance a fade. (R240) -/
  | finePathOutput (chain : Fin 40) (bits : List Bool)
  /-- BADMAX consecutive BAD fast outputs while DEBLOCKED raise the comparator's source with reason NOMEAS. (R344) -/
  | nomeas (comparator : Fin 14)
  /-- A bitstream holding one value for 256 modulator clocks raises MEAS_OPENWIRE with reason STUCK. (R216) -/
  | sdStuck (channel : Fin 24)
  /-- A stream toggling in every window for 4 windows ends the stuck condition and resets the chain. (R216) -/
  | sdStuckEnd (channel : Fin 24)
  /-- A tick-mark SAR trigger every TICK_DIV marks starts, latches or loses a scan. (R220) -/
  | sarTickTrigger
  /-- A SAR scan completes, delivering results, and a pending scan starts. (R218) -/
  | sarScanEnd (monitors : SarMonitors)
  /-- A SAR conversion result is ready and enters its filter chain, window comparator and checks. (R222) -/
  | sarResultReady (channel : Fin 23) (raw : BitVec 16)
  /-- 256 raw results are averaged for a calibration point; at POINT 1 OFS and GAIN are written or CAL_ERR set. (R223)
  -/
  | calibrationPointDone
  /-- An Ethernet frame is received, duplicate-discarded under PRP and dispatched to its consumer. (R519) -/
  | prpFrameReceived (port : Fin 4) (frame : NetFrame)
  /-- A PRP supervision frame is sent every 2 s on each pair. (R518) -/
  | prpSupervisionSend (pair : Fin 2)
  /-- Sync lost for 10 ms takes a port down, clearing LINK. (R515) -/
  | portDown (port : Fin 4)
  /-- A port becomes up when its PCS is synchronised and negotiation has completed. (R515) -/
  | portUp (port : Fin 4)
  /-- The 1 s Sync, Announce or Pdelay_Req interval expires and the message is sent. (R521) -/
  | ptpInterval (port : Fin 4) (kind : PtpKind) (egress : Int)
  /-- A PTP port reaching its announce timeout may switch roles or send the servo to HOLDOVER. (R523) -/
  | announceTimeout (port : Fin 4)
  /-- No SYNC_IN edge for 1.5 s in PPS mode puts the servo in HOLDOVER and raises PTP_LOSS. (R93) -/
  | ppsLoss
  /-- The last accepted message's timeAllowedToLive passes and its points become BAD. (R528) -/
  | gooseTtlExpiry (entry : Fin 32)
  /-- A publication is repeated at its next interval with sqNum incremented. (R530) -/
  | gooseRepeat (entry : Fin 32)
  /-- No acknowledgement by a publication's cycle deadline makes the station LOST and raises REMOTE_IO. (R445) -/
  | stationDeadline (station : Fin 32)
  /-- A full-permit copy without its partner copy within 100 µs is discarded and counted. (R359) -/
  | telegramPartnerTimeout (conn : Fin 8)
  /-- No accepted telegram for WDT puts the connection in demand and raises SAFE_TELEGRAM TIMEOUT. (R360) -/
  | telegramWdtTimeout (conn : Fin 8)
  /-- No valid copy on a port for LANWAIT marks that port down for the connection. (R359) -/
  | telegramPortDown (conn : Fin 8) (port : Fin 2)
  /-- A safety input channel's raw level held for FILT changes its filtered level, evaluated for demand. (R349) -/
  | safetyInputFiltered (input : Fin 8) (channelB : Bool) (level : Bool)
  /-- Inconsistent filtered channels for DISC raise SAFE_IN_DISCREPANCY. (R351) -/
  | safeInDiscrepancy (input : Fin 8)
  /-- Every TP_PERIOD an ON output is tested by pulsing each channel low and reading back. (R354) Each command is one edge of a pulse;
  For each channel: its readback falls and returns within 20 µs. -/
  | testPulse (output : Fin 4) (fellA returnedA fellB returnedB : Bool)
  /-- A change of an output's feedback contacts moves its feedback state machine. (R355) -/
  | feedbackChange (output : Fin 4) (fbA fbB : Bool)
  /-- T_PICK, T_DROP or T_FBDISC expires and the output enters FAULT, raising CONTACTOR_FB. (R355) -/
  | feedbackTimerExpiry (output : Fin 4)
  /-- The second key not written within 1 ms leaves the reset sequence incomplete. (R363) -/
  | safetyResetTimeout
  /-- A write of a key word to PRT_RESET advances the safety reset sequence. (R363) -/
  | prtResetWrite (value : Word)
  /-- LOCK_FILT above 0.8 × VIO18 for 100 µs declares main-PLL lock. (R75) -/
  | pllLockDeclared (aOk : Bool) (refB : RefSeen) (pll : PllSeen)
  /-- Loss of main-PLL lock injects a block set within 200 ns and raises PLL_UNLOCK. (R84) -/
  | pllUnlock (pll : PllSeen)
  /-- 2 µs after unlock the transmitters are disabled, the lanes stop, clocks move to bypass and the converter becomes
  BLOCKED. (R84) -/
  | lanesStopOnUnlock
  /-- LOCK_FILT declaring lock while the detector reports unlock for 1 ms sets LDMISMATCH and raises CONFIG_INTEGRITY.
  (R76) -/
  | ldmismatch
  /-- On relock the core returns to the PLL output and COARSE clears, with the lanes left stopped. (R86) -/
  | pllRelock
  /-- Loss of REFCLK_A switches the PLL to REFCLK_B with phase build-out and FRAC correction, raising REF_LOSS. (R82)
  -/
  | refclkALoss (bVsA : BitVec 24)
  /-- Loss of REFCLK_B raises REF_LOSS. (R81) -/
  | refclkBLoss
  /-- With REVERT 1, REFCLK_A good for 10 s switches the PLL back with the opposite FRAC correction. (R83) -/
  | refclkARevert (bVsA : BitVec 24)
  /-- The bypass clock falling back to the on-die oscillator de-energises all safety outputs and trips the converter.
  (R367) -/
  | bypassOnOscillator
  /-- A lane PLL losing lock disables its 16 transmitters and raises LANE_LOS for them. (R71) -/
  | lanePllUnlock (pll : Fin 4)
  /-- The port PLL losing lock raises DPX_LINK and REFEREE and takes all Ethernet ports down. (R71) -/
  | portPllUnlock
  /-- A SYNC_IN rising edge is timestamped in MONITOR or aligns the divider chain in ALIGN. (R77) -/
  | syncInEdge
  /-- An armed trigger unit whose target is reached fires its TASK, SCAN or LEDGER action. (R97) -/
  | timeTriggerFire (unit : Fin 16)
  /-- GRANT rising makes the device ACTIVE within 100 ns, with a BLOCK reaction if unqualified. (R375) -/
  | grantRise
  /-- GRANT falling without RELEASE darkens the lasers at once. (R394) -/
  | grantFall
  /-- GRANT low for 1 µs without a planned release sends the ACTIVE device to RESYNC and raises REFEREE GRANT_LOST.
  (R374) -/
  | grantLost
  /-- A GRANT low pulse shorter than 1 µs darkens lasers for its length and raises REFEREE GLITCH. (R375) -/
  | grantGlitch
  /-- A referee status frame is received and checked against the GRANT ball. (R379) -/
  | refereeStatusFrame (frame : RefFrame)
  /-- No valid referee status frame for 2 ms raises REFEREE LANE. (R379) -/
  | refereeLaneTimeout
  /-- The GRANT ball differing from the status frame for more than 10 µs raises REFEREE DISAGREE. (R379) -/
  | refereeDisagree
  /-- A Dovetail segment is received, checked, ordered by SSEQ and assembled into its record. (R380) -/
  | dovetailSegment (seg : SegmentBits)
  /-- A lane failing for DVL_TICKS marks loses the Dovetail link and raises DPX_LINK DOWN. (R383) -/
  | dovetailLinkLost
  /-- In tick s−1 the active device drops readiness and sets RELEASE once the frame for window s has left. (R392) -/
  | plannedRelease
  /-- A bench cycle ends and its outputs, mailbox writes, remote outputs and block requests commit in one step. (R432)
  -/
  | benchCycleEnd (task : Fin 96) (outs : List CycleOut)
  /-- Disagreeing Paired cores halt the bench, abandon the cycle and raise BENCH_LOCKSTEP. (R417) -/
  | benchLockstep (bench : Fin 8)
  /-- A cycle still running WDT ticks after release is abandoned, its task STOPPED, and WATCHDOG raised. (R427) -/
  | watchdog (task : Fin 96)
  /-- An access outside the bench regions or a write to code abandons the cycle and raises BUS_ERROR. (R428) -/
  | busError (task : Fin 96) (access : BadAccess)
  /-- The supervisor completes writing a RETAIN copy to MRAM, or a failed write raises BUS_ERROR. (R437) -/
  | journalWriteDone (ok : Bool)
  /-- Once no cycle runs during CHANGING, new instance data is built and the banks are swapped. (R440) -/
  | changeSwap
  /-- Cycles still running after CHG_WAIT ticks abandon the on-line change. (R440) -/
  | changeTimeout
  /-- A flag set satisfies a context's wait, clearing the masked flags and making it READY. (R452) -/
  | waitSatisfied (context : Fin 256)
  /-- A wait's timeout ends first and the context becomes READY with no release flags. (R452) -/
  | waitTimeout (context : Fin 256)
  /-- An idle executor takes the first ready context of highest priority whose affinity includes it. (R458) -/
  | dispatch (executor : Fin 16)
  /-- A newly READY context pre-empts the lowest-priority running context in its affinity. (R458) -/
  | preemption (context : Fin 256)
  /-- A service routine reaching 2 µs of executor time returns to the tail of its ready list. (R459) -/
  | serviceQuantumEnd (context : Fin 256)
  /-- A flow item whose service ended is released in arrival order. (R461) -/
  | flowItemRelease (flow : Fin 48)
  /-- An event to a full flow is merged or placed in the reserve, and FOREMAN_STALL RESERVE may be raised. (R466) -/
  | eventFlowFull (group : Fin 6) (event : DevEvent)
  /-- A flow holding items without release for STALL_TICKS raises FOREMAN_STALL. (R467) -/
  | foremanStall (flow : Fin 48)
  /-- A record's shadow ends and it is posted again if anything merged into it or escalated it. (R405) -/
  | shadowEnd
  /-- The supervisor watchdog expiring or kicked twice within 10 µs makes a failstop. (R412) -/
  | supervisorWatchdog
  /-- A supervisor lockstep error makes a failstop. (R412) -/
  | supervisorLockstep
  /-- Disagreement of the two copies of the collector's latch logic makes a failstop. (R412) -/
  | collectorDisagreement
  /-- A trigger unit fires by its signal condition or fault record and makes a segment or is ignored in hold-off.
  (R479) -/
  | ledgerTriggerFire (unit : Fin 32)
  /-- A trigger unit's hold-off time or firing count ends. (R478) -/
  | holdoffEnd (unit : Fin 32)
  /-- A doorbell write of SQ_TAIL submits descriptors for fetching. (R489) -/
  | sqTail (ctx : CtxIx) (value : Word)
  /-- The Foreman fetches a descriptor from a submission ring when limits allow, checking it under R494. (R464) -/
  | descriptorFetch (ctx : CtxIx) (bytes body : List Byte)
  /-- A doorbell write of CQ_HEAD frees completion-ring entries. (R490) -/
  | cqHead (ctx : CtxIx) (value : Word)
  /-- A completion or event entry is written to the completion ring with its MSI-X message. (R491) -/
  | completionWrite (ctx : CtxIx)
  /-- COAL_US after the first unsignalled entry the vector is raised. (R509) -/
  | msixCoalesceTimeout (ctx : CtxIx) (events : Bool)
  /-- A protocol error puts the context in ERROR and raises HOST_PROTOCOL. (R492) -/
  | hostProtocol (ctx : CtxIx) (reason : Fin 7) (addr : BitVec 64)
  /-- Writing EN 1 to an OFF context checks its rings and attaches it. (R510) -/
  | contextAttach (ctx : CtxIx) (vfEnabled : Bool)
  /-- Writing EN 0 starts a detach into DRAINING. (R511) -/
  | contextDetach (ctx : CtxIx)
  /-- A DRAINING context with no command in flight becomes OFF. (R511) -/
  | drainComplete (ctx : CtxIx)
  /-- An FLR, VF Enable clear or PERST_N makes the contexts concerned OFF at once. (R512) -/
  | functionReset (kind : ResetKind)
  /-- NOP is admitted and completes at its effective tick. (R495) -/
  | nop (ctx : CtxIx) (tag : BitVec 16)
  /-- A staged batch is checked and admitted for a commit tick, or refused. (R499) -/
  | stageBatch (ctx : CtxIx) (tag : BitVec 16)
  /-- Flow 36 stages the shadow writes of accepted batches in order of commit tick. (R58) -/
  | batchStagingStep
  /-- SNAP_READ captures its set at the upstream-window close of its tick and writes the result. (R507) -/
  | snapRead (ctx : CtxIx) (tag : BitVec 16)
  /-- LEDGER_FETCH transfers segment bytes and may release the segment. (R483) -/
  | ledgerFetch (ctx : CtxIx) (tag : BitVec 16)
  /-- PROG_LOAD stages and verifies a signed program image. (R440) -/
  | progLoad (ctx : CtxIx) (tag : BitVec 16)
  /-- PROG_START loads instance data cold or warm and sets the program RUNNING at its tick. (R435) -/
  | progStart (ctx : CtxIx) (tag : BitVec 16)
  /-- PROG_STOP ends every running cycle without committing outputs and stops the program. (R435) -/
  | progStop (ctx : CtxIx) (tag : BitVec 16)
  /-- PROG_CHANGE copies new code and makes the program CHANGING at its switch tick. (R440) -/
  | progChange (ctx : CtxIx) (tag : BitVec 16)
  /-- CELL_FORCE forces a cell to a state from its commit mark. (R307) -/
  | cellForce (ctx : CtxIx) (tag : BitVec 16)
  /-- CELL_UNFORCE releases one cell force or all. (R310) -/
  | cellUnforce (ctx : CtxIx) (tag : BitVec 16)
  /-- VAR_FORCE places a force on a program variable from its effective tick. (R439) -/
  | varForce (ctx : CtxIx) (tag : BitVec 16)
  /-- VAR_UNFORCE clears a variable force or all. (R439) -/
  | varUnforce (ctx : CtxIx) (tag : BitVec 16)
  /-- CELL_MBX sends a cell-service mailbox operation and completes with the reply. (R496) -/
  | cellMbx (ctx : CtxIx) (tag : BitVec 16)
  /-- CELL_FW verifies and distributes a cell firmware image to the named lanes. (R496) -/
  | cellFw (ctx : CtxIx) (tag : BitVec 16)
  /-- IMG_SLICE writes bytes into the staging area of its image kind. (R543) -/
  | imgSlice (ctx : CtxIx) (tag : BitVec 16)
  /-- IMG_FINISH verifies the staged image and writes it to flash or applies a revocation. (R543) -/
  | imgFinish (ctx : CtxIx) (tag : BitVec 16)
  /-- ATTEST captures measurements and writes a signed attestation report. (R549) -/
  | attest (ctx : CtxIx) (tag : BitVec 16)
  /-- SWITCHOVER schedules a planned switch-over at its switch mark. (R392) -/
  | switchover (ctx : CtxIx) (tag : BitVec 16)
  /-- LANE_START lights every enabled star lane at Watch rate with idle fill. (R129) -/
  | laneStart (ctx : CtxIx) (tag : BitVec 16)
  /-- LANE_STOP darkens the lanes and makes the converter DORMANT. (R130) -/
  | laneStop (ctx : CtxIx) (tag : BitVec 16)
  /-- RATE_CHANGE schedules the rate-change sets and a switch mark 16 ticks on. (R61) -/
  | rateChange (ctx : CtxIx) (tag : BitVec 16)
  /-- DEBLOCK is evaluated at its effective tick and deblocks or completes INHIBITED. (R30) -/
  | deblock (ctx : CtxIx) (tag : BitVec 16)
  /-- BLOCK_ORDERLY returns a DEBLOCKED converter to READY without a block set. (R28) -/
  | blockOrderly (ctx : CtxIx) (tag : BitVec 16)
  /-- BLOCK makes the converter BLOCKED with a block set at its effective mark. (R346) -/
  | block (ctx : CtxIx) (tag : BitVec 16)
  /-- BLOCK_ACK returns a BLOCKED converter to READY or WATCH if no BLOCK or TRIP source is latched. (R602) -/
  | blockAck (ctx : CtxIx) (tag : BitVec 16)
  /-- A write of lane mode or MISS_LIMIT is checked and loads the mode's defaults, or is refused in TCK_CHECK. (R45)
  -/
  | tckCfgWrite (value : Word)
  /-- A launch-point write passes the launch check or is refused. (R44) -/
  | tckLaunchWrite (value : Word)
  /-- A MAXFLIGHT write passes the launch and flight checks or is refused. (R46) -/
  | tckMaxflightWrite (value : Word)
  /-- Writing GO names the first mark whose fence it clears as a commit of held ST writes. (R59) -/
  | tckCommitGo (value : Word)
  /-- Setting or clearing FREEZE halts or resumes compute from the next mark. (R67) -/
  | tckFreezeWrite (value : Word)
  /-- CLK_COMMIT.GO moves NINT and FRAC shadows to the divider. (R72) -/
  | clkCommitGo (value : Word)
  /-- Writing ALIGN to CLK_SYNC.MODE arms a one-shot alignment, accepted only while DORMANT. (R79) -/
  | clkSyncAlign (value : Word)
  /-- TIM_SET_GO loads Timecount from TIM_SET while DORMANT with SRC FREE or PPS. (R92) -/
  | timSetGo (value : Word)
  /-- A write to TIM_LATCH captures Timecount, fraction and tick number. (R506) -/
  | timLatch (value : Word)
  /-- A write to a block's latch register captures its snapshot set and increments LSEQ. (R587) -/
  | snapshotLatch (block : LatchBlock)
  /-- LNK_ECHO.GO starts a cell echo on a slot for TICKS ticks or is refused. (R123) -/
  | lnkEchoGo (lane : LaneIx) (value : Word)
  /-- A software SAR trigger starts, latches or loses a scan. (R220) -/
  | meaSarTrigSw (value : Word)
  /-- MEA_CAL.GO starts averaging a calibration point. (R223) -/
  | meaCalGo (value : Word)
  /-- A write to FLC_RST requests a synchronising reset of chains at the next mark. (R248) -/
  | flcRst (high : Bool) (value : Word)
  /-- Writing 1 to a Fault Status Word bit clears it unless its condition is active. (R398) -/
  | fclFswClear (high : Bool) (value : Word)
  /-- FCL_CTRL.FIRST_CLR frees FCL_FIRST for the next record. (R405) -/
  | firstClr
  /-- FCL_CTRL.PRIOR_CLR clears the retained-state flag. (R413) -/
  | priorClr
  /-- A write to LDG_ARM arms trigger units. (R477) -/
  | ldgArm (value : Word)
  /-- A write to LDG_DISARM disarms trigger units, letting filling segments complete. (R484) -/
  | ldgDisarm (value : Word)
  /-- A write to LDG_FIRE fires armed units by host request. (R477) -/
  | ldgFire (value : Word)
  /-- A write to LDG_CFG sets streams and pool, restarting rings or being refused. (R473) -/
  | ldgCfgWrite (value : Word)
  /-- Writing SLOT and key 0xC3 to SEC_FUSE burns an owner key hash slot in SETUP. (R533) -/
  | secFuseBurn (value : Word)
  /-- A fuse burn completes and BUSY clears. (R533) -/
  | fuseBurnDone
  /-- A GO bit of SEC_EPOCH raises that floor to the running image's EPOCH. (R536) -/
  | epochRaise (value : Word)
  /-- GLB_CTRL.RUN requests RUN, entered at the next mark if locked and off bypass. (R551) -/
  | glbCtrlRun (value : Word)
  /-- A halt request through DBG_HALT or JTAG halts an executor or is refused. (R590) -/
  | dbgHalt (jtag : Bool) (value : Word)
  /-- A write to DBG_RESUME resumes halted executors. (R589) -/
  | dbgResume (value : Word)
  /-- A write to a register without a row of its own updates its fields or is ignored and recorded in WRERR. (R600) -/
  | registerWrite (addr : Word) (value : Word) (byteEnables : BitVec 4) (pf : Bool)
  /-- On release of reset the supervisor runs the boot ROM, verifying firmware and descriptor copies. (R540) -/
  | bootRom (checks : BootChecks)
  /-- The loaded device firmware starts, clears its TRIAL bit and enters SETUP. (R540) -/
  | firmwareStart
  /-- PORST_N resets every block except the retained PD0 fault registers and latches the straps. (R413) -/
  | externalReset (straps : BitVec 3)
  /-- PD0 leaves its power-on reset 1 ms after VAON and VIO33 are in tolerance. (R567) -/
  | pd0PowerOnReset
  /-- A rail outside its warning window for 10 µs raises SUPPLY WARN. (R568) -/
  | supplyWarn (rail : Fin 10)
  /-- A rail outside its fault window for 2 µs raises SUPPLY FAULT. (R568) -/
  | supplyFault (rail : Fin 10)
  /-- A core-type rail outside its fault window for 10 µs puts all domains but PD0 in reset. (R568) -/
  | supplyReset (rail : Fin 10)
  /-- A domain without power-good within 1 ms of its request raises SUPPLY DOMAIN. (R571) -/
  | domainPowerTimeout (domain : Fin 13)
  /-- PD12 powers down when flow 37 has been empty for 1 ms. (R572) -/
  | pd12IdleOff
  /-- A battery feed changes class, driving POLG low or raising BATTERY as due. (R574) -/
  | feedStateChange (feedB : Bool) (millivolts : Int)
  /-- A feed qualified for 10 ms has its POLG driven high. (R575) -/
  | polgQualified (feedB : Bool)
  /-- Die temperature crossing TJMAX − 10, TJMAX or TJMAX + 10 °C raises TEMPERATURE or drives THERM_N. (R578) -/
  | temperature (sixteenths : Int)
  /-- The Dovetail link becomes up when all four lanes show RXLOCK and the partner's tick-mark sets carry the local
  tick number, setting DVL_UP and allowing resynchronisation to begin. (R383) -/
  | dovetailLinkUp
  /-- A power domain reports power-good or PD10 leaves self-refresh, so that dispatch to PD4 resumes, held DRAM
  commands start and writes held for the domain are applied. (R570) -/
  | domainPowerGood (domain : Fin 13)
  /-- The QSPI flash write of a verified firmware or board-descriptor image ends, giving the copy its write sequence
  and completing IMG_FINISH. (R543) -/
  | flashWriteDone
  /-- Outside a test pulse, a safety output channel's readback at the ball stops equalling its command, raising
  SAFE_OUT_TEST and moving the output to FAULT. (R354) -/
  | safeOutReadbackMismatch (output : Fin 4) (channelB : Bool)
  deriving DecidableEq, Repr

end Sys2Proof
end

