-- ==== Sys2Proof/Config.lean ====
section
/-! DEFINITION. What the part or the installation fixes and the spec leaves open, as constants without a body: nothing
can be proved about their values. -/

namespace Sys2Proof

open Sys2Proof.Machine

/-- Values the spec leaves open, drawn one after another (DESIGN CHOICE, log entry 7). -/
opaque Config.freeValue : Nat → Nat

/-- The device type of the part: variant and stepping (R2, R588; DESIGN CHOICE, log entry 8). -/
opaque Config.partIdent : Nat

/-- The metal revision within the stepping (R588; DESIGN CHOICE, log entry 8). -/
opaque Config.metal : Nat

/-- The device serial (R548, R588; DESIGN CHOICE, log entry 8). -/
opaque Config.serial : BitVec 64

/-- Factory result of SAR channel 16 in mV (R227, R588; DESIGN CHOICE, log entry 8). -/
opaque Config.refMv : BitVec 16

/-- Hashes of the four vendor key slots (R533; DESIGN CHOICE, log entry 8). -/
opaque Config.vendorHash : Nat → List Byte

/-- What a board descriptor's body says; its layout is not in the spec (R516, R525, R573; DESIGN CHOICE, log
entry 9). -/
opaque Config.boardDesc : List Byte → BoardDesc

/-- The device certificate (R548; DESIGN CHOICE, log entry 8). -/
opaque Config.certificate : List Byte

/-- The signature of an attestation report (R547, R549; DESIGN CHOICE, log entry 11). -/
opaque Config.attestSignature : List Byte → List Byte

/-- The fixed polyphase resampler (R241): the value at a phase from the eight inputs around it, newest first. Its
coefficients are not in the spec (DESIGN CHOICE, log entry 12). -/
opaque Config.interp : Nat → List (BitVec 32) → BitVec 32

/-- The byte a receiver makes of a code group that stands for none (R102; DESIGN CHOICE, log entry 67). -/
opaque Config.strayByte : Nat → Byte

/-- The bytes of a Dovetail record's payload, whose layout is not in the spec (R380, R382; DESIGN CHOICE, log entry 25). -/
opaque Config.recordBytes : DoveRec → List Byte

/-- What a raw code of an internal SAR channel stands for (R211): mV on channels 16 to 19, 1/16 °C on 20, V at the ball on 21 and 22. The
spec gives the units, not the codes (DESIGN CHOICE, log entry 69). -/
opaque Config.sarReading : Nat → Nat → Rat

/-- The raw egress timestamp of the answer to a Pdelay_Req of a sequence on a port, in 1/64 ns: the MAC takes it as the frame leaves
(R525; DESIGN CHOICE, log entry 47). -/
opaque Config.responseStamp : Nat → BitVec 16 → Int

/-- Boot ROM version (R549; DESIGN CHOICE, log entry 8). -/
opaque Config.romVersion : Word

end Sys2Proof
end

