-- ==== Sys2Proof/Machine/Bytes.lean ====
section
/-! DEFINITION. Byte strings: numbers stored least significant byte first (R6), bit fields of entries, and the CRCs of
the cell link, the safe telegram and the digest (R139, R357, R386). -/

namespace Sys2Proof.Machine

/-- The number a byte string spells, least significant byte first (R6). -/
def leNat : List Byte → Nat
  | [] => 0
  | b :: r => b.toNat + 256 * leNat r

/-- The number a byte string spells, most significant byte first. -/
def beNat (l : List Byte) : Nat := l.foldl (fun a b => a * 256 + b.toNat) 0

/-- `n` bytes of `v`, least significant first (R6). -/
def leBytes : Nat → Nat → List Byte
  | 0, _ => []
  | n + 1, v => BitVec.ofNat 8 v :: leBytes n (v / 256)

/-- Field of `w` bits from bit `lo` of byte `b` on. -/
def fld (e : List Byte) (b lo w : Nat) : Nat := leNat ((e.drop b).take ((lo + w + 7) / 8)) / 2 ^ lo % 2 ^ w

/-- A one-bit field. -/
def fldB (e : List Byte) (b lo : Nat) : Bool := fld e b lo 1 == 1

/-- Reads `w` bits as two's complement. -/
def signed (w v : Nat) : Int := if v < 2 ^ (w - 1) then (v : Int) else (v : Int) - (2 ^ w : Nat)

/-- `l` brought to `n` bytes with zeros. -/
def padTo (n : Nat) (l : List Byte) : List Byte := (l ++ List.replicate n 0).take n

/-- Overwrites `l` from `off` on with `new`, growing it with zeros where needed. -/
def overlay (l : List Byte) (off : Nat) (new : List Byte) : List Byte :=
  padTo off l ++ new ++ l.drop (off + new.length)

/-- Cuts a byte string into entries of `n` bytes; `fuel` bounds their number. -/
def chunks (n : Nat) : Nat → List Byte → List (List Byte)
  | 0, _ => []
  | _ + 1, [] => []
  | fuel + 1, l => l.take n :: chunks n fuel (l.drop n)

/-- Bit reversal of the low `n` bits. -/
def bitRev : Nat → Nat → Nat
  | 0, _ => 0
  | n + 1, v => v % 2 * 2 ^ n + bitRev n (v / 2)

/-- A reflected CRC: width, polynomial (as printed), initial value and final XOR. -/
structure CrcSpec where
  width : Nat
  poly  : Nat
  init  : Nat
  xorOut : Nat
  deriving DecidableEq, Repr

/-- One bit of a reflected CRC. -/
def crcBit (rpoly r : Nat) : Nat := if r % 2 = 1 then (r / 2) ^^^ rpoly else r / 2

/-- One byte of a reflected CRC. -/
def crcByte (rpoly r : Nat) (b : Byte) : Nat :=
  let f := crcBit rpoly
  f (f (f (f (f (f (f (f (r ^^^ b.toNat))))))))

/-- The reflected CRC of a byte string (R139). -/
def crc (c : CrcSpec) (l : List Byte) : Nat :=
  l.foldl (crcByte (bitRev c.width c.poly)) (bitRev c.width c.init) ^^^ c.xorOut

/-- CRC-8 of the cell link (R139). -/
def crc8 : CrcSpec := ⟨8, 0x07, 0xFF, 0⟩
/-- CRC-16 of the cell link (R139). -/
def crc16 : CrcSpec := ⟨16, 0x1021, 0xFFFF, 0xFFFF⟩
/-- CRC-32 of the cell link (R139). -/
def crc32 : CrcSpec := ⟨32, 0x04C11DB7, 0xFFFFFFFF, 0xFFFFFFFF⟩
/-- CRC-32C of the mailbox (R139). -/
def crc32c : CrcSpec := ⟨32, 0x1EDC6F41, 0xFFFFFFFF, 0xFFFFFFFF⟩
/-- SCRC of the safe telegram (R357). -/
def crcSafe : CrcSpec := ⟨32, 0xF4ACFB13, 0xFFFFFFFF, 0xFFFFFFFF⟩
/-- CRC-64 of the digest (R386). -/
def crc64 : CrcSpec := ⟨64, 0x42F0E1EBA9EA3693, 0xFFFFFFFFFFFFFFFF, 0xFFFFFFFFFFFFFFFF⟩

/-- The CRC's bytes as stored, least significant first (R139). -/
def crcBytes (c : CrcSpec) (l : List Byte) : List Byte := leBytes (c.width / 8) (crc c l)

end Sys2Proof.Machine
end

