-- ==== Sys2Proof/Machine/Coding.lean ====
section
/-! DEFINITION. The line coding of the lanes (R101 to R105, R122): the 8b/10b code groups of IEEE 802.3 Clause 36 with their running
disparity, comma alignment, the reception of a burst and of a continuous stream, and the PRBS checker. -/

namespace Sys2Proof.Machine

/-! Code groups (R102). A group is the number that its ten bits abcdei fghj spell, a first. The running disparity is positive where
the Bool is true. -/

/-- Sub-blocks abcdei of D0 to D31 at negative disparity (Clause 36). -/
def sixTable : List Nat :=
  [0b100111, 0b011101, 0b101101, 0b110001, 0b110101, 0b101001, 0b011001, 0b111000, 0b111001, 0b100101, 0b010101, 0b110100, 0b001101,
   0b101100, 0b011100, 0b010111] ++
  [0b011011, 0b100011, 0b010011, 0b110010, 0b001011, 0b101010, 0b011010, 0b111010, 0b110011, 0b100110, 0b010110, 0b110110, 0b001110,
   0b101110, 0b011110, 0b101011]

/-- Sub-blocks fghj of x.0 to x.7 at negative disparity. -/
def fourTable : List Nat := [0b1011, 0b1001, 0b0101, 0b1100, 0b1101, 0b1010, 0b0110, 0b1110]

/-- How many of the low `n` bits of `v` are 1. -/
def onesIn (n v : Nat) : Nat := ((List.range n).filter fun i => v.testBit i).length

/-- Sub-block abcdei of D.x at a disparity: unbalanced ones and D.7 turn over at positive disparity. -/
def sixOf (rd : Bool) (x : Nat) : Nat :=
  let v := sixTable.getD x 0
  if rd && (onesIn 6 v != 3 || x == 7) then 63 - v else v

/-- Sub-block fghj of D.x.y at a disparity, with the alternate D.x.A7. -/
def fourOf (rd : Bool) (x y : Nat) : Nat :=
  let alt := y == 7 && (if rd then x == 11 || x == 13 || x == 14 else x == 17 || x == 18 || x == 20)
  let v := if alt then 0b0111 else fourTable.getD y 0
  if rd && (onesIn 4 v != 2 || y == 3) then 15 - v else v

/-- The disparity after a sub-block of `n` bits: positive after more ones than zeros and after 000111 and 0011, negative after fewer
and after 111000 and 1100. -/
def afterBlock (n v : Nat) (rd : Bool) : Bool :=
  let k := 2 * onesIn n v
  if n < k ∨ (n = 6 ∧ v = 0b000111) ∨ (n = 4 ∧ v = 0b0011) then true
  else if k < n ∨ (n = 6 ∧ v = 0b111000) ∨ (n = 4 ∧ v = 0b1100) then false
  else rd

/-- The disparity after a group. -/
def afterGroup (g : Nat) (rd : Bool) : Bool := afterBlock 4 (g % 16) (afterBlock 6 (g / 16) rd)

/-- The group of D.x.y at a disparity. -/
def dataGroup (rd : Bool) (b : Byte) : Nat :=
  let x := b.toNat % 32
  let six := sixOf rd x
  16 * six + fourOf (afterBlock 6 six rd) x (b.toNat / 32)

/-- The special code groups of Clause 36. -/
def specials : List Byte := [0x1C, 0x3C, 0x5C, 0x7C, 0x9C, 0xBC, 0xDC, 0xFC, 0xF7, 0xFB, 0xFD, 0xFE]

/-- The group of K.x.y at a disparity: K.28 has sub-block 001111, K.x.7 the alternate 1000, K.28.1, 2, 5 and 6 the sub-block that
D.x.y has turned over; positive disparity turns the whole group over. -/
def specialGroup (rd : Bool) (b : Byte) : Nat :=
  let x := b.toNat % 32
  let y := b.toNat / 32
  let six := if x = 28 then 0b001111 else sixTable.getD x 0
  let four := if y = 7 then 0b1000 else fourOf true x y
  let g := 16 * six + four
  if rd then 1023 - g else g

/-- The group sent for a symbol (R102). -/
def groupOf (rd : Bool) (s : Sym) : Nat :=
  match s with
  | .d b => dataGroup rd b
  | .k b => specialGroup rd b

/-- The symbol whose group at a disparity is the one given. -/
def symIn (rd : Bool) (g : Nat) : Option Sym :=
  match (List.range 32).find? fun x => sixOf rd x == g / 16 with
  | some x =>
    (match (List.range 8).find? fun y => fourOf (afterBlock 6 (g / 16) rd) x y == g % 16 with
    | some y => some (.d (BitVec.ofNat 8 (32 * y + x)))
    | none => (specials.find? fun b => specialGroup rd b == g).map Sym.k)
  | none => (specials.find? fun b => specialGroup rd b == g).map Sym.k

/-- What a receiver makes of one group. -/
structure Rx where
  sym  : Option Sym                    -- none: not in the tables
  disp : Bool                          -- it has the wrong disparity for its position
  deriving DecidableEq, Repr

/-- A received group against the tables (R102). -/
def rxGroup (rd : Bool) (g : Nat) : Rx :=
  match symIn rd g with
  | some s => { sym := some s, disp := false }
  | none => { sym := symIn (!rd) g, disp := (symIn (!rd) g).isSome }

/-- Special symbols (R103). -/
def K28_5 : Byte := 0xBC
def K28_1 : Byte := 0x3C
def K28_0 : Byte := 0x1C
def K27_7 : Byte := 0xFB
def K29_7 : Byte := 0xFD
def K30_7 : Byte := 0xFE

/-- The special symbols the device transmits (R103). -/
def usedSpecials : List Byte := [K28_5, K28_1, K27_7, K29_7, K30_7, K28_0]

/-- An invalid code group: not in the tables, or, on a star lane, a K code without a use there (R102, R103). -/
def Rx.invalid (star : Bool) (r : Rx) : Bool :=
  match r.sym with
  | none => true
  | some (.k b) => star && !usedSpecials.contains b
  | some (.d _) => false

/-- The groups of a stream received from a disparity on. -/
def rxStream : Bool → List Nat → List Rx
  | _, [] => []
  | rd, g :: r => rxGroup rd g :: rxStream (afterGroup g rd) r

/-- Invalid code groups and disparity errors of groups received. -/
def rxErrors (star : Bool) (l : List Rx) : Nat × Nat := ((l.filter (Rx.invalid star)).length, (l.filter (·.disp)).length)

/-- The byte a data group stands for; that of any other group is open (DESIGN CHOICE, log entry 67). -/
def rxByte (x : Nat × Rx) : Byte :=
  match x.2.sym with
  | some (.d b) => b
  | _ => Config.strayByte x.1

/-! Bits on the line. -/

/-- The number ten bits spell, the first the highest. -/
def bitsNat (l : List Bool) : Nat := l.foldl (fun n b => 2 * n + bitNat b) 0

/-- The ten bits of a group in transmission order. -/
def groupBits (g : Nat) : List Bool := (List.range 10).map fun i => g.testBit (9 - i)

/-- The groups of a stream that starts on a boundary, and the bits that remain. -/
def groupsOf : List Bool → List Nat × List Bool
  | a :: b :: c :: d :: e :: i :: f :: g :: h :: j :: r =>
    let (l, rest) := groupsOf r
    (bitsNat [a, b, c, d, e, i, f, g, h, j] :: l, rest)
  | l => ([], l)

/-- The bits of symbols sent from a disparity on (R102), and the disparity after them. -/
def symBits : Bool → List Sym → List Bool
  | _, [] => []
  | rd, s :: r => groupBits (groupOf rd s) ++ symBits (afterGroup (groupOf rd s) rd) r

/-- The first ten bits are those of K28.5 in either form. -/
def atK285 (l : List Bool) : Bool :=
  let g := bitsNat (l.take 10)
  decide (10 ≤ l.length) && (g == specialGroup false K28_5 || g == specialGroup true K28_5)

/-- The stream from its first comma on: 0011111 or 1100000 (R105). -/
def toComma : List Bool → List Bool
  | [] => []
  | b :: r =>
    let g := bitsNat ((b :: r).take 7)
    if 7 ≤ (b :: r).length ∧ (g = 0b0011111 ∨ g = 0b1100000) then b :: r else toComma r

/-! Bursts (R104, R105, R113, R126). -/

/-- The stream from the two K28.5 after the preamble on, on which the burst receiver aligns (R105). -/
def toBurst : List Bool → List Bool
  | [] => []
  | b :: r => if atK285 (b :: r) && atK285 ((b :: r).drop 10) then b :: r else toBurst r

/-- A burst as its receiver reads it. -/
structure BurstRead where
  found   : Bool                       -- its K27.7
  payload : List Byte                  -- the 24 bytes after it
  codeErr : Nat                        -- invalid code groups from the alignment to K29.7
  dispErr : Nat                        -- disparity errors there
  deriving DecidableEq, Repr

/-- The burst receiver reads a burst: aligned on its two K28.5, with the disparity check at negative disparity on the first of them
(R104), to its K29.7. -/
def readBurst (bits : List Bool) : BurstRead :=
  let gs := (groupsOf (toBurst bits)).1
  let rx := gs.zip (rxStream false gs)
  let k := rx.findIdx fun x => x.2.sym == some (.k K27_7)
  let n := if k < rx.length then k + 26 else 28
  let (c, d) := rxErrors true ((rx.take n).map (·.2))
  { found := decide (k < rx.length), payload := (List.range 24).map fun i => ((rx[k + 1 + i]?).map rxByte).getD (Config.strayByte 0)
    codeErr := c, dispErr := d }

/-- The symbols of a burst (R150). -/
def burstSyms (payload : List Byte) : List Sym :=
  List.replicate 36 (.d 0xB5) ++ [.k K28_5, .k K28_5, .k K27_7] ++ payload.map .d ++ [.k K29_7]

/-! PRBS (R122). -/

/-- The prediction of the next bit from those before it, newest first: x^7 + x^6 + 1, or x^31 + x^28 + 1 sent inverted (ITU-T O.150;
PRESUMED, log entry 67). -/
def prbsNext (prbs31 : Bool) (hist : List Bool) : Bool :=
  if prbs31 then !xor (!hist.getD 30 false) (!hist.getD 27 false) else xor (hist.getD 6 false) (hist.getD 5 false)

/-- Bits the predictor looks back over. -/
def prbsLen (prbs31 : Bool) : Nat := if prbs31 then 31 else 7

/-- The self-synchronising checker: bits that differ from their prediction, once it has as many bits as it looks back over, and the
newest bits. -/
def prbsCheck (prbs31 : Bool) (hist : List Bool) (bits : List Bool) : Nat × List Bool :=
  bits.foldl (fun (x : Nat × List Bool) b =>
    let bad := decide (prbsLen prbs31 ≤ x.2.length) && b != prbsNext prbs31 x.2
    (x.1 + bitNat bad, (b :: x.2).take (prbsLen prbs31))) (0, hist)

/-! Equalisation (R119, R121). -/

/-- The settings of a lane as its entry of the equalisation table gives them, with the receiver peaking of the rate. -/
def eqSet (e : BitVec 64) (watch : Bool) : EqSet :=
  let f := fun lo w => e.toNat / 2 ^ lo % 2 ^ w
  { swingMv := 400 + 50 * f 0 4, post := f 8 4, pre := f 12 4, peak := if watch then f 20 4 else f 16 4
    rxInv := e.getLsbD 24, txInv := e.getLsbD 25 }

end Sys2Proof.Machine
end

