-- ==== Sys2Proof/Machine/Keyed.lean ====
section
/-! DEFINITION. The one operation pair of sparse keyed lists: read a key, write a key keeping the canonical form (keys
strictly rising, no entry equal to what an unlisted key reads as). -/

namespace Sys2Proof.Machine

/-- The value at key `k`, `d` where unlisted. -/
def kget {α : Type} (d : α) : KeyList α → Nat → α
  | [], _ => d
  | (j, v) :: r, k => if j = k then v else kget d r k

/-- Removes key `k`. -/
def kdel {α : Type} : KeyList α → Nat → KeyList α
  | [], _ => []
  | (j, v) :: r, k => if j = k then kdel r k else (j, v) :: kdel r k

/-- Inserts a key that is not listed before the first larger one. -/
def kins {α : Type} : KeyList α → Nat → α → KeyList α
  | [], k, v => [(k, v)]
  | (j, w) :: r, k, v => if k < j then (k, v) :: (j, w) :: r else (j, w) :: kins r k v

/-- Places `v` at key `k`. -/
def kput {α : Type} (l : KeyList α) (k : Nat) (v : α) : KeyList α := kins (kdel l k) k v

/-- Writes `v` at key `k`; writing the default removes the entry. -/
def kset {α : Type} [DecidableEq α] (d : α) (l : KeyList α) (k : Nat) (v : α) : KeyList α :=
  if v = d then kdel l k else kput l k v

/-- Changes the value at key `k` by `f`. -/
def kmod {α : Type} [DecidableEq α] (d : α) (l : KeyList α) (k : Nat) (f : α → α) : KeyList α :=
  kset d l k (f (kget d l k))

/-- Whether a key is listed. -/
def khas {α : Type} : KeyList α → Nat → Bool
  | [], _ => false
  | (j, _) :: r, k => j == k || khas r k

/-- Keys strictly rising from `lo`, no entry equal to what its key reads as by default. -/
def kwfFrom {α : Type} [DecidableEq α] (d : Nat → α) : Nat → KeyList α → Bool
  | _, [] => true
  | lo, (j, v) :: r => decide (lo ≤ j) && decide (v ≠ d j) && kwfFrom d (j + 1) r

/-- The canonical form of a sparse list whose key `k` reads `d k` where unlisted. -/
def kwf {α : Type} [DecidableEq α] (d : Nat → α) (l : KeyList α) : Bool := kwfFrom d 0 l

/-- Applies `f` to every key below `n` in rising order. -/
def forUpto {σ : Type} (n : Nat) (s : σ) (f : σ → Nat → σ) : σ := (List.range n).foldl f s

end Sys2Proof.Machine
end

