-- ==== Sys2Proof/Machine/RegMap.lean ====
section
/-! DEFINITION. The register map of BAR0 (R591): every register with its address, its reset word (R583), and its
fields with their access codes (R9) and stated ranges (R600), one definition per field. A register that stands in
an array has its address computed from its index. -/

namespace Sys2Proof.Machine

/-- Access codes of register fields (R9). -/
inductive Access where
  | rw | ro | wo | w1c | w1s | st
  deriving DecidableEq, Repr

/-- The values a field may be written with (R600). -/
inductive Range where
  | any
  | span (lo hi : Nat)
  | codes (l : List Nat)
  deriving DecidableEq, Repr

/-- A field of one register: the register's address, the lowest bit and the width. -/
structure Field where
  addr  : Nat
  lo    : Nat
  width : Nat
  deriving DecidableEq, Repr

/-- A field of a register's layout. -/
structure FieldSpec where
  lo    : Nat
  width : Nat
  acc   : Access
  range : Range := .any
  deriving DecidableEq, Repr

/-- A register or an array of registers at equal steps (R591). -/
structure RegSpec where
  base   : Nat
  count  : Nat
  stride : Nat
  reset  : Nat
  fields : List FieldSpec
  deriving DecidableEq, Repr

/-! GLB_IDENT. -/
def GLB_IDENT_VARIANT : Field := ⟨0x0, 0, 4⟩
def GLB_IDENT_STEP : Field := ⟨0x0, 4, 4⟩
def GLB_IDENT_DIE : Field := ⟨0x0, 16, 16⟩
/-! GLB_REV. -/
def GLB_REV_MAPREV : Field := ⟨0x4, 0, 8⟩
def GLB_REV_METAL : Field := ⟨0x4, 8, 8⟩
/-! GLB_SERIAL_LO. -/
def GLB_SERIAL_LO_SERIAL : Field := ⟨0x8, 0, 32⟩
/-! GLB_SERIAL_HI. -/
def GLB_SERIAL_HI_SERIAL : Field := ⟨0xC, 0, 32⟩
/-! GLB_CTRL. -/
def GLB_CTRL_RUN : Field := ⟨0x10, 0, 1⟩
/-! GLB_STATUS. -/
def GLB_STATUS_DSTATE : Field := ⟨0x14, 0, 3⟩
def GLB_STATUS_WRERR : Field := ⟨0x14, 3, 1⟩
def GLB_STATUS_RUNREJ : Field := ⟨0x14, 4, 4⟩
/-! GLB_STRAP. -/
def GLB_STRAP_DBG_EN : Field := ⟨0x18, 0, 1⟩
def GLB_STRAP_TEST_EN : Field := ⟨0x18, 1, 1⟩
def GLB_STRAP_QSPI_SLOW : Field := ⟨0x18, 2, 1⟩
/-! GLB_REFCAL. -/
def GLB_REFCAL_REFMV : Field := ⟨0x1C, 0, 16⟩

/-- Registers of block GLB, part 0 (R591). -/
def regsGlb0 : List RegSpec :=
  [ ⟨0x0, 1, 0x4, 0x7A310000, [⟨0, 4, .ro, .any⟩, ⟨4, 4, .ro, .any⟩, ⟨16, 16, .ro, .any⟩]⟩,
    ⟨0x4, 1, 0x4, 0x1, [⟨0, 8, .ro, .any⟩, ⟨8, 8, .ro, .any⟩]⟩,
    ⟨0x8, 1, 0x4, 0x0, [⟨0, 32, .ro, .any⟩]⟩,
    ⟨0xC, 1, 0x4, 0x0, [⟨0, 32, .ro, .any⟩]⟩,
    ⟨0x10, 1, 0x4, 0x0, [⟨0, 1, .w1s, .any⟩]⟩,
    ⟨0x14, 1, 0x4, 0x1, [⟨0, 3, .ro, .any⟩, ⟨3, 1, .w1c, .any⟩, ⟨4, 4, .ro, .any⟩]⟩,
    ⟨0x18, 1, 0x4, 0x0, [⟨0, 1, .ro, .any⟩, ⟨1, 1, .ro, .any⟩, ⟨2, 1, .ro, .any⟩]⟩,
    ⟨0x1C, 1, 0x4, 0x0, [⟨0, 16, .ro, .any⟩]⟩ ]

/-! PWR_CFG. -/
def PWR_CFG_MEM_WATCH : Field := ⟨0x1000, 0, 1⟩
def PWR_CFG_FEEDEN_A : Field := ⟨0x1000, 1, 1⟩
def PWR_CFG_FEEDEN_B : Field := ⟨0x1000, 2, 1⟩
def PWR_CFG_DIFF : Field := ⟨0x1000, 8, 8⟩
/-! PWR_DOMSTAT. -/
def PWR_DOMSTAT_ON : Field := ⟨0x1004, 0, 13⟩
def PWR_DOMSTAT_MEM_SR : Field := ⟨0x1004, 13, 1⟩
def PWR_DOMSTAT_WATCHPROF : Field := ⟨0x1004, 14, 1⟩
/-! PWR_RAILSTAT. -/
def PWR_RAILSTAT_GOOD : Field := ⟨0x1008, 0, 10⟩
def PWR_RAILSTAT_WARN : Field := ⟨0x1008, 16, 10⟩
/-! PWR_BATTSTAT. -/
def PWR_BATTSTAT_STATE_A : Field := ⟨0x100C, 0, 3⟩
def PWR_BATTSTAT_POLG_A : Field := ⟨0x100C, 3, 1⟩
def PWR_BATTSTAT_STATE_B : Field := ⟨0x100C, 4, 3⟩
def PWR_BATTSTAT_POLG_B : Field := ⟨0x100C, 7, 1⟩
/-! PWR_TEMP. -/
def PWR_TEMP_TDIE : Field := ⟨0x1010, 0, 16⟩
/-! PWR_SUPPLY_CNT. -/
def PWR_SUPPLY_CNT_COUNT : Field := ⟨0x1020, 0, 31⟩
def PWR_SUPPLY_CNT_SAT : Field := ⟨0x1020, 31, 1⟩
/-! PWR_POLGOFF_CNT. -/
def PWR_POLGOFF_CNT_COUNT : Field := ⟨0x1024, 0, 31⟩
def PWR_POLGOFF_CNT_SAT : Field := ⟨0x1024, 31, 1⟩

/-- Registers of block PWR, part 0 (R591). -/
def regsPwr0 : List RegSpec :=
  [ ⟨0x1000, 1, 0x4, 0x506, [⟨0, 1, .rw, .any⟩, ⟨1, 1, .rw, .any⟩, ⟨2, 1, .rw, .any⟩, ⟨8, 8, .rw, .span 1 25⟩]⟩,
    ⟨0x1004, 1, 0x4, 0x1109, [⟨0, 13, .ro, .any⟩, ⟨13, 1, .ro, .any⟩, ⟨14, 1, .ro, .any⟩]⟩,
    ⟨0x1008, 1, 0x4, 0x0, [⟨0, 10, .ro, .any⟩, ⟨16, 10, .w1c, .any⟩]⟩,
    ⟨0x100C, 1, 0x4, 0x0, [⟨0, 3, .ro, .any⟩, ⟨3, 1, .ro, .any⟩, ⟨4, 3, .ro, .any⟩, ⟨7, 1, .ro, .any⟩]⟩,
    ⟨0x1010, 1, 0x4, 0x0, [⟨0, 16, .ro, .any⟩]⟩,
    ⟨0x1020, 1, 0x4, 0x0, [⟨0, 31, .ro, .any⟩, ⟨31, 1, .w1c, .any⟩]⟩,
    ⟨0x1024, 1, 0x4, 0x0, [⟨0, 31, .ro, .any⟩, ⟨31, 1, .w1c, .any⟩]⟩ ]

/-! CLK_CFG. -/
def CLK_CFG_SRC_MODE : Field := ⟨0x2000, 0, 2⟩
def CLK_CFG_REVERT : Field := ⟨0x2000, 2, 1⟩
def CLK_CFG_FORCE_B : Field := ⟨0x2000, 3, 1⟩
/-! CLK_PLL. -/
def CLK_PLL_NINT : Field := ⟨0x2004, 0, 8⟩
/-! CLK_FRAC. -/
def CLK_FRAC_FRAC : Field := ⟨0x2008, 0, 24⟩
/-! CLK_COMMIT. -/
def CLK_COMMIT_GO : Field := ⟨0x200C, 0, 1⟩
def CLK_COMMIT_PEND : Field := ⟨0x200C, 1, 1⟩
/-! CLK_STATUS. -/
def CLK_STATUS_LOCK : Field := ⟨0x2010, 0, 1⟩
def CLK_STATUS_SLIPDET : Field := ⟨0x2010, 1, 1⟩
def CLK_STATUS_REFSEL : Field := ⟨0x2010, 2, 1⟩
def CLK_STATUS_A_OK : Field := ⟨0x2010, 3, 1⟩
def CLK_STATUS_B_OK : Field := ⟨0x2010, 4, 1⟩
def CLK_STATUS_SYM_OK : Field := ⟨0x2010, 5, 1⟩
def CLK_STATUS_BYPASS : Field := ⟨0x2010, 6, 1⟩
def CLK_STATUS_LPLL_LOCK : Field := ⟨0x2010, 7, 4⟩
def CLK_STATUS_PORT_LOCK : Field := ⟨0x2010, 11, 1⟩
def CLK_STATUS_LDMISMATCH : Field := ⟨0x2010, 12, 1⟩
def CLK_STATUS_WRERR : Field := ⟨0x2010, 13, 1⟩
/-! CLK_REFMON. -/
def CLK_REFMON_B_VS_A : Field := ⟨0x2014, 0, 24⟩
/-! CLK_SYNC. -/
def CLK_SYNC_MODE : Field := ⟨0x2018, 0, 2⟩
def CLK_SYNC_SYNC_OFS : Field := ⟨0x2018, 2, 30⟩
/-! CLK_SYNC_ERR. -/
def CLK_SYNC_ERR_ERR : Field := ⟨0x201C, 0, 32⟩

/-- Registers of block CLK, part 0 (R591). -/
def regsClk0 : List RegSpec :=
  [ ⟨0x2000, 1, 0x4, 0x0, [⟨0, 2, .rw, .span 0 1⟩, ⟨2, 1, .rw, .any⟩, ⟨3, 1, .rw, .any⟩]⟩,
    ⟨0x2004, 1, 0x4, 0x32, [⟨0, 8, .rw, .any⟩]⟩,
    ⟨0x2008, 1, 0x4, 0x0, [⟨0, 24, .rw, .any⟩]⟩,
    ⟨0x200C, 1, 0x4, 0x0, [⟨0, 1, .w1s, .any⟩, ⟨1, 1, .ro, .any⟩]⟩,
    ⟨0x2010, 1, 0x4, 0x40, [⟨0, 1, .ro, .any⟩, ⟨1, 1, .ro, .any⟩, ⟨2, 1, .ro, .any⟩, ⟨3, 1, .ro, .any⟩, ⟨4, 1, .ro, .any⟩, ⟨5, 1, .ro, .any⟩, ⟨6, 1, .ro, .any⟩, ⟨7, 4, .ro, .any⟩, ⟨11, 1, .ro, .any⟩, ⟨12, 1, .w1c, .any⟩, ⟨13, 1, .w1c, .any⟩]⟩,
    ⟨0x2014, 1, 0x4, 0x0, [⟨0, 24, .ro, .any⟩]⟩,
    ⟨0x2018, 1, 0x4, 0x0, [⟨0, 2, .rw, .span 0 2⟩, ⟨2, 30, .rw, .span 0 999999999⟩]⟩,
    ⟨0x201C, 1, 0x4, 0x0, [⟨0, 32, .ro, .any⟩]⟩ ]

/-! TIM_CFG. -/
def TIM_CFG_SRC : Field := ⟨0x3000, 0, 2⟩
def TIM_CFG_SLEW : Field := ⟨0x3000, 2, 10⟩
def TIM_CFG_STEPTHR : Field := ⟨0x3000, 16, 8⟩
/-! TIM_STATUS. -/
def TIM_STATUS_TSTATE : Field := ⟨0x3004, 0, 2⟩
def TIM_STATUS_STEPPED : Field := ⟨0x3004, 2, 1⟩
def TIM_STATUS_COARSE : Field := ⟨0x3004, 3, 1⟩
def TIM_STATUS_WRERR : Field := ⟨0x3004, 4, 1⟩
/-! TIM_OFFSET. -/
def TIM_OFFSET_OFFSET : Field := ⟨0x3008, 0, 32⟩
/-! TIM_UTC. -/
def TIM_UTC_UTC : Field := ⟨0x300C, 0, 32⟩
/-! TIM_LATCH. -/
def TIM_LATCH_LSEQ : Field := ⟨0x3010, 0, 16⟩
/-! TIM_SNAP_LO. -/
def TIM_SNAP_LO_T : Field := ⟨0x3014, 0, 32⟩
/-! TIM_SNAP_HI. -/
def TIM_SNAP_HI_T : Field := ⟨0x3018, 0, 32⟩
/-! TIM_SNAP_FRAC. -/
def TIM_SNAP_FRAC_FRAC : Field := ⟨0x301C, 0, 16⟩
/-! TIM_SNAP_TICK. -/
def TIM_SNAP_TICK_TICK : Field := ⟨0x3020, 0, 32⟩
/-! TIM_SET_LO. -/
def TIM_SET_LO_T : Field := ⟨0x3024, 0, 32⟩
/-! TIM_SET_HI. -/
def TIM_SET_HI_T : Field := ⟨0x3028, 0, 32⟩
/-! TIM_SET_GO. -/
def TIM_SET_GO_GO : Field := ⟨0x302C, 0, 1⟩
/-! TIM_TRIG_TGT_LO, an array of 16. -/
def TIM_TRIG_TGT_LO_T (n : Nat) : Field := ⟨0x3100 + 0x20 * n, 0, 32⟩
/-! TIM_TRIG_TGT_HI, an array of 16. -/
def TIM_TRIG_TGT_HI_T (n : Nat) : Field := ⟨0x3104 + 0x20 * n, 0, 32⟩
/-! TIM_TRIG_PERIOD, an array of 16. -/
def TIM_TRIG_PERIOD_P (n : Nat) : Field := ⟨0x3108 + 0x20 * n, 0, 32⟩
/-! TIM_TRIG_CTRL, an array of 16. -/
def TIM_TRIG_CTRL_ARM (n : Nat) : Field := ⟨0x310C + 0x20 * n, 0, 1⟩
def TIM_TRIG_CTRL_TICKREF (n : Nat) : Field := ⟨0x310C + 0x20 * n, 1, 1⟩
def TIM_TRIG_CTRL_ACTION (n : Nat) : Field := ⟨0x310C + 0x20 * n, 2, 3⟩
def TIM_TRIG_CTRL_TARGET (n : Nat) : Field := ⟨0x310C + 0x20 * n, 8, 8⟩
/-! TIM_TRIG_STAT, an array of 16. -/
def TIM_TRIG_STAT_FIRED (n : Nat) : Field := ⟨0x3110 + 0x20 * n, 0, 1⟩
def TIM_TRIG_STAT_LATE (n : Nat) : Field := ⟨0x3110 + 0x20 * n, 1, 1⟩

/-- Registers of block TIM, part 0 (R591). -/
def regsTim0 : List RegSpec :=
  [ ⟨0x3000, 1, 0x4, 0x10190, [⟨0, 2, .rw, .span 0 2⟩, ⟨2, 10, .rw, .span 1 1000⟩, ⟨16, 8, .rw, .span 1 255⟩]⟩,
    ⟨0x3004, 1, 0x4, 0x0, [⟨0, 2, .ro, .any⟩, ⟨2, 1, .w1c, .any⟩, ⟨3, 1, .ro, .any⟩, ⟨4, 1, .w1c, .any⟩]⟩,
    ⟨0x3008, 1, 0x4, 0x0, [⟨0, 32, .ro, .any⟩]⟩,
    ⟨0x300C, 1, 0x4, 0x25, [⟨0, 32, .rw, .any⟩]⟩,
    ⟨0x3010, 1, 0x4, 0x0, [⟨0, 16, .ro, .any⟩]⟩,
    ⟨0x3014, 1, 0x4, 0x0, [⟨0, 32, .ro, .any⟩]⟩,
    ⟨0x3018, 1, 0x4, 0x0, [⟨0, 32, .ro, .any⟩]⟩,
    ⟨0x301C, 1, 0x4, 0x0, [⟨0, 16, .ro, .any⟩]⟩,
    ⟨0x3020, 1, 0x4, 0x0, [⟨0, 32, .ro, .any⟩]⟩,
    ⟨0x3024, 1, 0x4, 0x0, [⟨0, 32, .rw, .any⟩]⟩,
    ⟨0x3028, 1, 0x4, 0x0, [⟨0, 32, .rw, .any⟩]⟩,
    ⟨0x302C, 1, 0x4, 0x0, [⟨0, 1, .w1s, .any⟩]⟩ ]

/-- Registers of block TIM, part 1 (R591). -/
def regsTim1 : List RegSpec :=
  [ ⟨0x3100, 16, 0x20, 0x0, [⟨0, 32, .rw, .any⟩]⟩,
    ⟨0x3104, 16, 0x20, 0x0, [⟨0, 32, .rw, .any⟩]⟩,
    ⟨0x3108, 16, 0x20, 0x0, [⟨0, 32, .rw, .any⟩]⟩,
    ⟨0x310C, 16, 0x20, 0x0, [⟨0, 1, .rw, .any⟩, ⟨1, 1, .rw, .any⟩, ⟨2, 3, .rw, .span 0 3⟩, ⟨8, 8, .rw, .any⟩]⟩,
    ⟨0x3110, 16, 0x20, 0x0, [⟨0, 1, .w1c, .any⟩, ⟨1, 1, .w1c, .any⟩]⟩ ]

/-! TCK_CFG. -/
def TCK_CFG_MODE : Field := ⟨0x4000, 0, 2⟩
def TCK_CFG_MISS_LIMIT : Field := ⟨0x4000, 2, 2⟩
/-! TCK_LAUNCH. -/
def TCK_LAUNCH_LAUNCH : Field := ⟨0x4004, 0, 14⟩
/-! TCK_MAXFLIGHT. -/
def TCK_MAXFLIGHT_MAXFLIGHT : Field := ⟨0x4008, 0, 12⟩
/-! TCK_SLIP. -/
def TCK_SLIP_SLIP_LIMIT : Field := ⟨0x400C, 0, 10⟩
def TCK_SLIP_SLIP_EFF : Field := ⟨0x400C, 16, 10⟩
/-! TCK_CHECK. -/
def TCK_CHECK_REJ : Field := ⟨0x4010, 0, 1⟩
def TCK_CHECK_REASON : Field := ⟨0x4010, 4, 4⟩
/-! TCK_STATUS. -/
def TCK_STATUS_SHED : Field := ⟨0x4014, 0, 1⟩
def TCK_STATUS_FROZEN : Field := ⟨0x4014, 1, 1⟩
def TCK_STATUS_FLIGHT_EXCEED : Field := ⟨0x4014, 2, 1⟩
def TCK_STATUS_MISSRUN : Field := ⟨0x4014, 4, 2⟩
def TCK_STATUS_MEAS_SLACK : Field := ⟨0x4014, 16, 14⟩
/-! TCK_SLIP_CNT. -/
def TCK_SLIP_CNT_COUNT : Field := ⟨0x4018, 0, 31⟩
def TCK_SLIP_CNT_SAT : Field := ⟨0x4018, 31, 1⟩
/-! TCK_OVR_CNT. -/
def TCK_OVR_CNT_COUNT : Field := ⟨0x401C, 0, 31⟩
def TCK_OVR_CNT_SAT : Field := ⟨0x401C, 31, 1⟩
/-! TCK_SHED_CNT. -/
def TCK_SHED_CNT_COUNT : Field := ⟨0x4020, 0, 31⟩
def TCK_SHED_CNT_SAT : Field := ⟨0x4020, 31, 1⟩
/-! TCK_COMMIT. -/
def TCK_COMMIT_GO : Field := ⟨0x4024, 0, 1⟩
def TCK_COMMIT_PEND : Field := ⟨0x4024, 1, 1⟩
/-! TCK_FREEZE. -/
def TCK_FREEZE_FREEZE : Field := ⟨0x4028, 0, 1⟩

/-- Registers of block TCK, part 0 (R591). -/
def regsTck0 : List RegSpec :=
  [ ⟨0x4000, 1, 0x4, 0x9, [⟨0, 2, .rw, .span 0 2⟩, ⟨2, 2, .rw, .span 1 3⟩]⟩,
    ⟨0x4004, 1, 0x4, 0x12C0, [⟨0, 14, .rw, .any⟩]⟩,
    ⟨0x4008, 1, 0x4, 0x271, [⟨0, 12, .rw, .any⟩]⟩,
    ⟨0x400C, 1, 0x4, 0xC8, [⟨0, 10, .rw, .any⟩, ⟨16, 10, .ro, .any⟩]⟩,
    ⟨0x4010, 1, 0x4, 0x0, [⟨0, 1, .w1c, .any⟩, ⟨4, 4, .ro, .any⟩]⟩,
    ⟨0x4014, 1, 0x4, 0x0, [⟨0, 1, .ro, .any⟩, ⟨1, 1, .ro, .any⟩, ⟨2, 1, .ro, .any⟩, ⟨4, 2, .ro, .any⟩, ⟨16, 14, .ro, .any⟩]⟩,
    ⟨0x4018, 1, 0x4, 0x0, [⟨0, 31, .ro, .any⟩, ⟨31, 1, .w1c, .any⟩]⟩,
    ⟨0x401C, 1, 0x4, 0x0, [⟨0, 31, .ro, .any⟩, ⟨31, 1, .w1c, .any⟩]⟩,
    ⟨0x4020, 1, 0x4, 0x0, [⟨0, 31, .ro, .any⟩, ⟨31, 1, .w1c, .any⟩]⟩,
    ⟨0x4024, 1, 0x4, 0x0, [⟨0, 1, .w1s, .any⟩, ⟨1, 1, .ro, .any⟩]⟩,
    ⟨0x4028, 1, 0x4, 0x0, [⟨0, 1, .rw, .any⟩]⟩ ]

/-! LNK_CTRL, an array of 64. -/
def LNK_CTRL_EN (n : Nat) : Field := ⟨0x10000 + 0x100 * n, 0, 1⟩
def LNK_CTRL_LOOP (n : Nat) : Field := ⟨0x10000 + 0x100 * n, 1, 2⟩
def LNK_CTRL_PATTERN (n : Nat) : Field := ⟨0x10000 + 0x100 * n, 3, 3⟩
def LNK_CTRL_EQSEL (n : Nat) : Field := ⟨0x10000 + 0x100 * n, 6, 4⟩
/-! LNK_STATUS, an array of 64. -/
def LNK_STATUS_UP (n : Nat) : Field := ⟨0x10004 + 0x100 * n, 0, 1⟩
def LNK_STATUS_RXLOCK (n : Nat) : Field := ⟨0x10004 + 0x100 * n, 1, 1⟩
def LNK_STATUS_LOS (n : Nat) : Field := ⟨0x10004 + 0x100 * n, 2, 1⟩
def LNK_STATUS_FAR (n : Nat) : Field := ⟨0x10004 + 0x100 * n, 3, 1⟩
def LNK_STATUS_ECHO_BUSY (n : Nat) : Field := ⟨0x10004 + 0x100 * n, 4, 1⟩
def LNK_STATUS_WRERR (n : Nat) : Field := ⟨0x10004 + 0x100 * n, 5, 1⟩
def LNK_STATUS_TXDIS (n : Nat) : Field := ⟨0x10004 + 0x100 * n, 6, 1⟩
/-! LNK_BRST, an array of 64. -/
def LNK_BRST_START (n : Nat) : Field := ⟨0x10008 + 0x100 * n, 0, 7⟩
def LNK_BRST_WIDTH (n : Nat) : Field := ⟨0x10008 + 0x100 * n, 8, 4⟩
/-! LNK_ECHO, an array of 64. -/
def LNK_ECHO_SLOT (n : Nat) : Field := ⟨0x1000C + 0x100 * n, 0, 7⟩
def LNK_ECHO_GO (n : Nat) : Field := ⟨0x1000C + 0x100 * n, 7, 1⟩
def LNK_ECHO_TICKS (n : Nat) : Field := ⟨0x1000C + 0x100 * n, 8, 16⟩
/-! LNK_CODE_CNT, an array of 64. -/
def LNK_CODE_CNT_COUNT (n : Nat) : Field := ⟨0x10020 + 0x100 * n, 0, 31⟩
def LNK_CODE_CNT_SAT (n : Nat) : Field := ⟨0x10020 + 0x100 * n, 31, 1⟩
/-! LNK_DISP_CNT, an array of 64. -/
def LNK_DISP_CNT_COUNT (n : Nat) : Field := ⟨0x10024 + 0x100 * n, 0, 31⟩
def LNK_DISP_CNT_SAT (n : Nat) : Field := ⟨0x10024 + 0x100 * n, 31, 1⟩
/-! LNK_NOLOCK_CNT, an array of 64. -/
def LNK_NOLOCK_CNT_COUNT (n : Nat) : Field := ⟨0x10028 + 0x100 * n, 0, 31⟩
def LNK_NOLOCK_CNT_SAT (n : Nat) : Field := ⟨0x10028 + 0x100 * n, 31, 1⟩
/-! LNK_MISALIGN_CNT, an array of 64. -/
def LNK_MISALIGN_CNT_COUNT (n : Nat) : Field := ⟨0x1002C + 0x100 * n, 0, 31⟩
def LNK_MISALIGN_CNT_SAT (n : Nat) : Field := ⟨0x1002C + 0x100 * n, 31, 1⟩
/-! LNK_DISCARD_CNT, an array of 64. -/
def LNK_DISCARD_CNT_COUNT (n : Nat) : Field := ⟨0x10030 + 0x100 * n, 0, 31⟩
def LNK_DISCARD_CNT_SAT (n : Nat) : Field := ⟨0x10030 + 0x100 * n, 31, 1⟩
/-! LNK_LOS_CNT, an array of 64. -/
def LNK_LOS_CNT_COUNT (n : Nat) : Field := ⟨0x10034 + 0x100 * n, 0, 31⟩
def LNK_LOS_CNT_SAT (n : Nat) : Field := ⟨0x10034 + 0x100 * n, 31, 1⟩
/-! LNK_ECHO_ERR, an array of 64. -/
def LNK_ECHO_ERR_COUNT (n : Nat) : Field := ⟨0x10038 + 0x100 * n, 0, 31⟩
def LNK_ECHO_ERR_SAT (n : Nat) : Field := ⟨0x10038 + 0x100 * n, 31, 1⟩
/-! LNK_PRBS_ERR, an array of 64. -/
def LNK_PRBS_ERR_COUNT (n : Nat) : Field := ⟨0x1003C + 0x100 * n, 0, 31⟩
def LNK_PRBS_ERR_SAT (n : Nat) : Field := ⟨0x1003C + 0x100 * n, 31, 1⟩
/-! LNK_GCFG. -/
def LNK_GCFG_LOS_TICKS : Field := ⟨0x14800, 0, 4⟩
def LNK_GCFG_CODE_THR : Field := ⟨0x14800, 8, 8⟩
/-! LNK_GSTAT. -/
def LNK_GSTAT_TXDIS_G0 : Field := ⟨0x14804, 0, 1⟩
def LNK_GSTAT_TXDIS_G1 : Field := ⟨0x14804, 1, 1⟩
def LNK_GSTAT_GRANT : Field := ⟨0x14804, 2, 1⟩
def LNK_GSTAT_READY : Field := ⟨0x14804, 3, 1⟩

/-- Registers of block LNK, part 0 (R591). -/
def regsLnk0 : List RegSpec :=
  [ ⟨0x10000, 64, 0x100, 0x0, [⟨0, 1, .rw, .any⟩, ⟨1, 2, .rw, .span 0 2⟩, ⟨3, 3, .rw, .span 0 2⟩, ⟨6, 4, .rw, .any⟩]⟩,
    ⟨0x10004, 64, 0x100, 0x40, [⟨0, 1, .ro, .any⟩, ⟨1, 1, .ro, .any⟩, ⟨2, 1, .ro, .any⟩, ⟨3, 1, .w1c, .any⟩, ⟨4, 1, .ro, .any⟩, ⟨5, 1, .w1c, .any⟩, ⟨6, 1, .ro, .any⟩]⟩,
    ⟨0x10008, 64, 0x100, 0x644, [⟨0, 7, .rw, .span 64 74⟩, ⟨8, 4, .rw, .span 2 12⟩]⟩,
    ⟨0x1000C, 64, 0x100, 0x1000, [⟨0, 7, .rw, .any⟩, ⟨7, 1, .w1s, .any⟩, ⟨8, 16, .rw, .any⟩]⟩,
    ⟨0x10020, 64, 0x100, 0x0, [⟨0, 31, .ro, .any⟩, ⟨31, 1, .w1c, .any⟩]⟩,
    ⟨0x10024, 64, 0x100, 0x0, [⟨0, 31, .ro, .any⟩, ⟨31, 1, .w1c, .any⟩]⟩,
    ⟨0x10028, 64, 0x100, 0x0, [⟨0, 31, .ro, .any⟩, ⟨31, 1, .w1c, .any⟩]⟩,
    ⟨0x1002C, 64, 0x100, 0x0, [⟨0, 31, .ro, .any⟩, ⟨31, 1, .w1c, .any⟩]⟩,
    ⟨0x10030, 64, 0x100, 0x0, [⟨0, 31, .ro, .any⟩, ⟨31, 1, .w1c, .any⟩]⟩,
    ⟨0x10034, 64, 0x100, 0x0, [⟨0, 31, .ro, .any⟩, ⟨31, 1, .w1c, .any⟩]⟩,
    ⟨0x10038, 64, 0x100, 0x0, [⟨0, 31, .ro, .any⟩, ⟨31, 1, .w1c, .any⟩]⟩,
    ⟨0x1003C, 64, 0x100, 0x0, [⟨0, 31, .ro, .any⟩, ⟨31, 1, .w1c, .any⟩]⟩ ]

/-- Registers of block LNK, part 1 (R591). -/
def regsLnk1 : List RegSpec :=
  [ ⟨0x14800, 1, 0x4, 0x1003, [⟨0, 4, .rw, .span 1 15⟩, ⟨8, 8, .rw, .span 1 255⟩]⟩,
    ⟨0x14804, 1, 0x4, 0x3, [⟨0, 1, .ro, .any⟩, ⟨1, 1, .ro, .any⟩, ⟨2, 1, .ro, .any⟩, ⟨3, 1, .ro, .any⟩]⟩ ]

/-! LNP_CTRL, an array of 5. -/
def LNP_CTRL_EN (n : Nat) : Field := ⟨0x14000 + 0x100 * n, 0, 1⟩
def LNP_CTRL_LOOP (n : Nat) : Field := ⟨0x14000 + 0x100 * n, 1, 2⟩
def LNP_CTRL_PATTERN (n : Nat) : Field := ⟨0x14000 + 0x100 * n, 3, 3⟩
def LNP_CTRL_EQSEL (n : Nat) : Field := ⟨0x14000 + 0x100 * n, 6, 4⟩
/-! LNP_STATUS, an array of 5. -/
def LNP_STATUS_UP (n : Nat) : Field := ⟨0x14004 + 0x100 * n, 0, 1⟩
def LNP_STATUS_RXLOCK (n : Nat) : Field := ⟨0x14004 + 0x100 * n, 1, 1⟩
def LNP_STATUS_LOS (n : Nat) : Field := ⟨0x14004 + 0x100 * n, 2, 1⟩
def LNP_STATUS_FAR (n : Nat) : Field := ⟨0x14004 + 0x100 * n, 3, 1⟩
def LNP_STATUS_ECHO_BUSY (n : Nat) : Field := ⟨0x14004 + 0x100 * n, 4, 1⟩
def LNP_STATUS_WRERR (n : Nat) : Field := ⟨0x14004 + 0x100 * n, 5, 1⟩
def LNP_STATUS_TXDIS (n : Nat) : Field := ⟨0x14004 + 0x100 * n, 6, 1⟩
/-! LNP_CODE_CNT, an array of 5. -/
def LNP_CODE_CNT_COUNT (n : Nat) : Field := ⟨0x14020 + 0x100 * n, 0, 31⟩
def LNP_CODE_CNT_SAT (n : Nat) : Field := ⟨0x14020 + 0x100 * n, 31, 1⟩
/-! LNP_DISP_CNT, an array of 5. -/
def LNP_DISP_CNT_COUNT (n : Nat) : Field := ⟨0x14024 + 0x100 * n, 0, 31⟩
def LNP_DISP_CNT_SAT (n : Nat) : Field := ⟨0x14024 + 0x100 * n, 31, 1⟩
/-! LNP_LOS_CNT, an array of 5. -/
def LNP_LOS_CNT_COUNT (n : Nat) : Field := ⟨0x14034 + 0x100 * n, 0, 31⟩
def LNP_LOS_CNT_SAT (n : Nat) : Field := ⟨0x14034 + 0x100 * n, 31, 1⟩
/-! LNP_ECHO_ERR, an array of 5. -/
def LNP_ECHO_ERR_COUNT (n : Nat) : Field := ⟨0x14038 + 0x100 * n, 0, 31⟩
def LNP_ECHO_ERR_SAT (n : Nat) : Field := ⟨0x14038 + 0x100 * n, 31, 1⟩
/-! LNP_PRBS_ERR, an array of 5. -/
def LNP_PRBS_ERR_COUNT (n : Nat) : Field := ⟨0x1403C + 0x100 * n, 0, 31⟩
def LNP_PRBS_ERR_SAT (n : Nat) : Field := ⟨0x1403C + 0x100 * n, 31, 1⟩

/-- Registers of block LNP, part 0 (R591). -/
def regsLnp0 : List RegSpec :=
  [ ⟨0x14000, 5, 0x100, 0x0, [⟨0, 1, .rw, .any⟩, ⟨1, 2, .rw, .any⟩, ⟨3, 3, .rw, .span 0 2⟩, ⟨6, 4, .rw, .any⟩]⟩,
    ⟨0x14004, 5, 0x100, 0x0, [⟨0, 1, .ro, .any⟩, ⟨1, 1, .ro, .any⟩, ⟨2, 1, .ro, .any⟩, ⟨3, 1, .w1c, .any⟩, ⟨4, 1, .ro, .any⟩, ⟨5, 1, .w1c, .any⟩, ⟨6, 1, .ro, .any⟩]⟩,
    ⟨0x14008, 5, 0x100, 0x0, []⟩,
    ⟨0x1400C, 5, 0x100, 0x0, []⟩,
    ⟨0x14020, 5, 0x100, 0x0, [⟨0, 31, .ro, .any⟩, ⟨31, 1, .w1c, .any⟩]⟩,
    ⟨0x14024, 5, 0x100, 0x0, [⟨0, 31, .ro, .any⟩, ⟨31, 1, .w1c, .any⟩]⟩,
    ⟨0x14028, 5, 0x100, 0x0, []⟩,
    ⟨0x1402C, 5, 0x100, 0x0, []⟩,
    ⟨0x14030, 5, 0x100, 0x0, []⟩,
    ⟨0x14034, 5, 0x100, 0x0, [⟨0, 31, .ro, .any⟩, ⟨31, 1, .w1c, .any⟩]⟩,
    ⟨0x14038, 5, 0x100, 0x0, [⟨0, 31, .ro, .any⟩, ⟨31, 1, .w1c, .any⟩]⟩,
    ⟨0x1403C, 5, 0x100, 0x0, [⟨0, 31, .ro, .any⟩, ⟨31, 1, .w1c, .any⟩]⟩ ]

/-! MEA_SDCFG. -/
def MEA_SDCFG_DIV : Field := ⟨0x20000, 0, 8⟩
def MEA_SDCFG_CLKEN : Field := ⟨0x20000, 8, 6⟩
/-! MEA_SDCH, an array of 24. -/
def MEA_SDCH_EN (n : Nat) : Field := ⟨0x20100 + 0x4 * n, 0, 1⟩
def MEA_SDCH_INV (n : Nat) : Field := ⟨0x20100 + 0x4 * n, 1, 1⟩
def MEA_SDCH_SAMP_DLY (n : Nat) : Field := ⟨0x20100 + 0x4 * n, 2, 8⟩
def MEA_SDCH_STUCK (n : Nat) : Field := ⟨0x20100 + 0x4 * n, 10, 1⟩
/-! MEA_SAR_MASK. -/
def MEA_SAR_MASK_MASK : Field := ⟨0x21000, 0, 22⟩
/-! MEA_SAR_TRIG. -/
def MEA_SAR_TRIG_TICK_EN : Field := ⟨0x21004, 0, 1⟩
def MEA_SAR_TRIG_TIME_EN : Field := ⟨0x21004, 1, 1⟩
def MEA_SAR_TRIG_SW : Field := ⟨0x21004, 2, 1⟩
def MEA_SAR_TRIG_TICK_DIV : Field := ⟨0x21004, 8, 8⟩
def MEA_SAR_TRIG_TICK_OFS : Field := ⟨0x21004, 16, 16⟩
/-! MEA_SAR_STAT. -/
def MEA_SAR_STAT_BUSY : Field := ⟨0x21008, 0, 1⟩
def MEA_SAR_STAT_PEND : Field := ⟨0x21008, 1, 1⟩
def MEA_SAR_STAT_SCAN_OVR : Field := ⟨0x21008, 2, 1⟩
def MEA_SAR_STAT_REFCHK : Field := ⟨0x21008, 3, 1⟩
def MEA_SAR_STAT_CAL_BUSY : Field := ⟨0x21008, 4, 1⟩
def MEA_SAR_STAT_CAL_ERR : Field := ⟨0x21008, 5, 1⟩
def MEA_SAR_STAT_WRERR : Field := ⟨0x21008, 6, 1⟩
/-! MEA_SAR_OVR_CNT. -/
def MEA_SAR_OVR_CNT_COUNT : Field := ⟨0x2100C, 0, 31⟩
def MEA_SAR_OVR_CNT_SAT : Field := ⟨0x2100C, 31, 1⟩
/-! MEA_SV_ERR. -/
def MEA_SV_ERR_COUNT : Field := ⟨0x21030, 0, 31⟩
def MEA_SV_ERR_SAT : Field := ⟨0x21030, 31, 1⟩
/-! MEA_CAL. -/
def MEA_CAL_CH : Field := ⟨0x21010, 0, 6⟩
def MEA_CAL_POINT : Field := ⟨0x21010, 6, 1⟩
def MEA_CAL_GO : Field := ⟨0x21010, 7, 1⟩
/-! MEA_CAL_FS. -/
def MEA_CAL_FS_FS : Field := ⟨0x21014, 0, 16⟩
/-! MEA_OW_CFG. -/
def MEA_OW_CFG_MODES : Field := ⟨0x21020, 0, 32⟩
/-! MEA_OW_THR. -/
def MEA_OW_THR_OW_DELTA : Field := ⟨0x21024, 0, 16⟩
def MEA_OW_THR_OW_COUNT : Field := ⟨0x21024, 16, 4⟩
/-! MEA_OW_STAT. -/
def MEA_OW_STAT_OPEN : Field := ⟨0x21028, 0, 16⟩
/-! MEA_LATCH. -/
def MEA_LATCH_LSEQ : Field := ⟨0x21080, 0, 16⟩
/-! MEA_SNAP, an array of 23. -/
def MEA_SNAP_RESULT (n : Nat) : Field := ⟨0x21100 + 0x4 * n, 0, 16⟩
def MEA_SNAP_QUAL (n : Nat) : Field := ⟨0x21100 + 0x4 * n, 16, 3⟩
/-! MEA_SNAP_TS_LO. -/
def MEA_SNAP_TS_LO_T : Field := ⟨0x21160, 0, 32⟩
/-! MEA_SNAP_TS_HI. -/
def MEA_SNAP_TS_HI_T : Field := ⟨0x21164, 0, 32⟩
/-! MEA_SNAP_SCAN. -/
def MEA_SNAP_SCAN_SEQ : Field := ⟨0x21168, 0, 16⟩
def MEA_SNAP_SCAN_DELAY : Field := ⟨0x21168, 16, 16⟩
/-! MEA_OFS, an array of 40. -/
def MEA_OFS_OFS (n : Nat) : Field := ⟨0x22000 + 0x8 * n, 0, 17⟩
/-! MEA_GAIN, an array of 40. -/
def MEA_GAIN_GAIN (n : Nat) : Field := ⟨0x22004 + 0x8 * n, 0, 18⟩
/-! MEA_WIN, an array of 22. -/
def MEA_WIN_LO (n : Nat) : Field := ⟨0x23000 + 0x8 * n, 0, 16⟩
def MEA_WIN_HI (n : Nat) : Field := ⟨0x23000 + 0x8 * n, 16, 16⟩
/-! MEA_WINCFG, an array of 22. -/
def MEA_WINCFG_EN (n : Nat) : Field := ⟨0x23004 + 0x8 * n, 0, 1⟩
def MEA_WINCFG_HYST (n : Nat) : Field := ⟨0x23004 + 0x8 * n, 8, 16⟩
/-! MEA_WIN_STAT. -/
def MEA_WIN_STAT_OUT : Field := ⟨0x23100, 0, 22⟩

/-- Registers of block MEA, part 0 (R591). -/
def regsMea0 : List RegSpec :=
  [ ⟨0x20000, 1, 0x4, 0x32, [⟨0, 8, .rw, .codes [40, 50, 100, 125, 200]⟩, ⟨8, 6, .rw, .any⟩]⟩,
    ⟨0x20100, 24, 0x4, 0x50, [⟨0, 1, .rw, .any⟩, ⟨1, 1, .rw, .any⟩, ⟨2, 8, .rw, .any⟩, ⟨10, 1, .ro, .any⟩]⟩,
    ⟨0x21000, 1, 0x4, 0x10000, [⟨0, 22, .rw, .any⟩]⟩,
    ⟨0x21004, 1, 0x4, 0x100, [⟨0, 1, .rw, .any⟩, ⟨1, 1, .rw, .any⟩, ⟨2, 1, .w1s, .any⟩, ⟨8, 8, .rw, .span 1 255⟩, ⟨16, 16, .rw, .any⟩]⟩,
    ⟨0x21008, 1, 0x4, 0x0, [⟨0, 1, .ro, .any⟩, ⟨1, 1, .ro, .any⟩, ⟨2, 1, .w1c, .any⟩, ⟨3, 1, .w1c, .any⟩, ⟨4, 1, .ro, .any⟩, ⟨5, 1, .w1c, .any⟩, ⟨6, 1, .w1c, .any⟩]⟩,
    ⟨0x2100C, 1, 0x4, 0x0, [⟨0, 31, .ro, .any⟩, ⟨31, 1, .w1c, .any⟩]⟩,
    ⟨0x21030, 1, 0x4, 0x0, [⟨0, 31, .ro, .any⟩, ⟨31, 1, .w1c, .any⟩]⟩,
    ⟨0x21010, 1, 0x4, 0x0, [⟨0, 6, .rw, .span 0 39⟩, ⟨6, 1, .rw, .any⟩, ⟨7, 1, .w1s, .any⟩]⟩,
    ⟨0x21014, 1, 0x4, 0xFFFF, [⟨0, 16, .rw, .any⟩]⟩,
    ⟨0x21020, 1, 0x4, 0x0, [⟨0, 32, .rw, .any⟩]⟩,
    ⟨0x21024, 1, 0x4, 0x40400, [⟨0, 16, .rw, .any⟩, ⟨16, 4, .rw, .span 1 15⟩]⟩,
    ⟨0x21028, 1, 0x4, 0x0, [⟨0, 16, .ro, .any⟩]⟩ ]

/-- Registers of block MEA, part 1 (R591). -/
def regsMea1 : List RegSpec :=
  [ ⟨0x21080, 1, 0x4, 0x0, [⟨0, 16, .ro, .any⟩]⟩,
    ⟨0x21100, 23, 0x4, 0x0, [⟨0, 16, .ro, .any⟩, ⟨16, 3, .ro, .any⟩]⟩,
    ⟨0x21160, 1, 0x4, 0x0, [⟨0, 32, .ro, .any⟩]⟩,
    ⟨0x21164, 1, 0x4, 0x0, [⟨0, 32, .ro, .any⟩]⟩,
    ⟨0x21168, 1, 0x4, 0x0, [⟨0, 16, .ro, .any⟩, ⟨16, 16, .ro, .any⟩]⟩,
    ⟨0x22000, 40, 0x8, 0x0, [⟨0, 17, .st, .any⟩]⟩,
    ⟨0x22004, 40, 0x8, 0x10000, [⟨0, 18, .st, .any⟩]⟩,
    ⟨0x23000, 22, 0x8, 0xFFFF0000, [⟨0, 16, .rw, .any⟩, ⟨16, 16, .rw, .any⟩]⟩,
    ⟨0x23004, 22, 0x8, 0x4000, [⟨0, 1, .rw, .any⟩, ⟨8, 16, .rw, .any⟩]⟩,
    ⟨0x23100, 1, 0x4, 0x0, [⟨0, 22, .w1c, .any⟩]⟩ ]

/-! FLC_RST0. -/
def FLC_RST0_RST : Field := ⟨0x28000, 0, 32⟩
/-! FLC_RST1. -/
def FLC_RST1_RST : Field := ⟨0x28004, 0, 8⟩
/-! FLC_STAT, an array of 40. -/
def FLC_STAT_QUAL (n : Nat) : Field := ⟨0x28100 + 0x10 * n, 0, 3⟩
def FLC_STAT_PATH (n : Nat) : Field := ⟨0x28100 + 0x10 * n, 3, 1⟩
def FLC_STAT_BANK (n : Nat) : Field := ⟨0x28100 + 0x10 * n, 4, 1⟩
def FLC_STAT_FADING (n : Nat) : Field := ⟨0x28100 + 0x10 * n, 5, 1⟩
def FLC_STAT_QUEUED (n : Nat) : Field := ⟨0x28100 + 0x10 * n, 6, 1⟩
def FLC_STAT_THR0 (n : Nat) : Field := ⟨0x28100 + 0x10 * n, 8, 1⟩
def FLC_STAT_THR1 (n : Nat) : Field := ⟨0x28100 + 0x10 * n, 9, 1⟩
def FLC_STAT_SETTLE (n : Nat) : Field := ⟨0x28100 + 0x10 * n, 16, 16⟩
/-! FLC_DFINE, an array of 40. -/
def FLC_DFINE_D_FINE (n : Nat) : Field := ⟨0x28104 + 0x10 * n, 0, 24⟩
/-! FLC_DFAST, an array of 40. -/
def FLC_DFAST_D_FAST (n : Nat) : Field := ⟨0x28108 + 0x10 * n, 0, 16⟩
/-! FLC_REPL, an array of 40. -/
def FLC_REPL_COUNT (n : Nat) : Field := ⟨0x2810C + 0x10 * n, 0, 31⟩
def FLC_REPL_SAT (n : Nat) : Field := ⟨0x2810C + 0x10 * n, 31, 1⟩

/-- Registers of block FLC, part 0 (R591). -/
def regsFlc0 : List RegSpec :=
  [ ⟨0x28000, 1, 0x4, 0x0, [⟨0, 32, .w1s, .any⟩]⟩,
    ⟨0x28004, 1, 0x4, 0x0, [⟨0, 8, .w1s, .any⟩]⟩,
    ⟨0x28100, 40, 0x10, 0x5, [⟨0, 3, .ro, .any⟩, ⟨3, 1, .ro, .any⟩, ⟨4, 1, .ro, .any⟩, ⟨5, 1, .ro, .any⟩, ⟨6, 1, .ro, .any⟩, ⟨8, 1, .w1c, .any⟩, ⟨9, 1, .w1c, .any⟩, ⟨16, 16, .ro, .any⟩]⟩,
    ⟨0x28104, 40, 0x10, 0x0, [⟨0, 24, .ro, .any⟩]⟩,
    ⟨0x28108, 40, 0x10, 0x0, [⟨0, 16, .ro, .any⟩]⟩,
    ⟨0x2810C, 40, 0x10, 0x0, [⟨0, 31, .ro, .any⟩, ⟨31, 1, .w1c, .any⟩]⟩ ]

/-! LPE_CFG. -/
def LPE_CFG_PRECHG : Field := ⟨0x30000, 0, 1⟩
def LPE_CFG_STALE : Field := ⟨0x30000, 8, 8⟩
/-! LPE_SLOTSTAT, an array of 64. -/
def LPE_SLOTSTAT_RAN (n : Nat) : Field := ⟨0x30100 + 0x4 * n, 0, 1⟩
def LPE_SLOTSTAT_SHED (n : Nat) : Field := ⟨0x30100 + 0x4 * n, 1, 1⟩
def LPE_SLOTSTAT_FROZEN (n : Nat) : Field := ⟨0x30100 + 0x4 * n, 2, 1⟩
def LPE_SLOTSTAT_YCLAMP (n : Nat) : Field := ⟨0x30100 + 0x4 * n, 3, 1⟩
def LPE_SLOTSTAT_ICLAMP (n : Nat) : Field := ⟨0x30100 + 0x4 * n, 4, 1⟩
def LPE_SLOTSTAT_NONFIN (n : Nat) : Field := ⟨0x30100 + 0x4 * n, 5, 1⟩
def LPE_SLOTSTAT_REPLIM (n : Nat) : Field := ⟨0x30100 + 0x4 * n, 6, 1⟩
def LPE_SLOTSTAT_SATRUN (n : Nat) : Field := ⟨0x30100 + 0x4 * n, 8, 8⟩
def LPE_SLOTSTAT_QUAL (n : Nat) : Field := ⟨0x30100 + 0x4 * n, 16, 3⟩
/-! LPE_STALE, an array of 2. -/
def LPE_STALE_STALE (n : Nat) : Field := ⟨0x30200 + 0x4 * n, 0, 32⟩
/-! LPE_NONFIN_CNT. -/
def LPE_NONFIN_CNT_COUNT : Field := ⟨0x30210, 0, 31⟩
def LPE_NONFIN_CNT_SAT : Field := ⟨0x30210, 31, 1⟩
/-! LPE_REPMIS_CNT. -/
def LPE_REPMIS_CNT_COUNT : Field := ⟨0x30214, 0, 31⟩
def LPE_REPMIS_CNT_SAT : Field := ⟨0x30214, 31, 1⟩
/-! LPE_MBXDIFF_CNT. -/
def LPE_MBXDIFF_CNT_COUNT : Field := ⟨0x30218, 0, 31⟩
def LPE_MBXDIFF_CNT_SAT : Field := ⟨0x30218, 31, 1⟩

/-- Registers of block LPE, part 0 (R591). -/
def regsLpe0 : List RegSpec :=
  [ ⟨0x30000, 1, 0x4, 0x0, [⟨0, 1, .rw, .any⟩, ⟨8, 8, .rw, .any⟩]⟩,
    ⟨0x30100, 64, 0x4, 0x0, [⟨0, 1, .ro, .any⟩, ⟨1, 1, .ro, .any⟩, ⟨2, 1, .ro, .any⟩, ⟨3, 1, .ro, .any⟩, ⟨4, 1, .ro, .any⟩, ⟨5, 1, .w1c, .any⟩, ⟨6, 1, .w1c, .any⟩, ⟨8, 8, .ro, .any⟩, ⟨16, 3, .ro, .any⟩]⟩,
    ⟨0x30200, 2, 0x4, 0x0, [⟨0, 32, .ro, .any⟩]⟩,
    ⟨0x30210, 1, 0x4, 0x0, [⟨0, 31, .ro, .any⟩, ⟨31, 1, .w1c, .any⟩]⟩,
    ⟨0x30214, 1, 0x4, 0x0, [⟨0, 31, .ro, .any⟩, ⟨31, 1, .w1c, .any⟩]⟩,
    ⟨0x30218, 1, 0x4, 0x0, [⟨0, 31, .ro, .any⟩, ⟨31, 1, .w1c, .any⟩]⟩ ]

/-! OSC_CFG, an array of 16. -/
def OSC_CFG_SLOT (n : Nat) : Field := ⟨0x31000 + 0x20 * n, 0, 6⟩
def OSC_CFG_EN (n : Nat) : Field := ⟨0x31000 + 0x20 * n, 6, 1⟩
def OSC_CFG_MREQ (n : Nat) : Field := ⟨0x31000 + 0x20 * n, 8, 8⟩
/-! OSC_FLO, an array of 16. -/
def OSC_FLO_V (n : Nat) : Field := ⟨0x31004 + 0x20 * n, 0, 32⟩
/-! OSC_FHI, an array of 16. -/
def OSC_FHI_V (n : Nat) : Field := ⟨0x31008 + 0x20 * n, 0, 32⟩
/-! OSC_AMP, an array of 16. -/
def OSC_AMP_V (n : Nat) : Field := ⟨0x3100C + 0x20 * n, 0, 32⟩
/-! OSC_HYS, an array of 16. -/
def OSC_HYS_V (n : Nat) : Field := ⟨0x31010 + 0x20 * n, 0, 32⟩
/-! OSC_STAT, an array of 16. -/
def OSC_STAT_DECL (n : Nat) : Field := ⟨0x31014 + 0x20 * n, 0, 1⟩
def OSC_STAT_WRERR (n : Nat) : Field := ⟨0x31014 + 0x20 * n, 1, 1⟩
def OSC_STAT_CNT (n : Nat) : Field := ⟨0x31014 + 0x20 * n, 8, 8⟩
/-! OSC_FREQ, an array of 16. -/
def OSC_FREQ_V (n : Nat) : Field := ⟨0x31018 + 0x20 * n, 0, 32⟩
/-! OSC_ENV, an array of 16. -/
def OSC_ENV_V (n : Nat) : Field := ⟨0x3101C + 0x20 * n, 0, 32⟩

/-- Registers of block OSC, part 0 (R591). -/
def regsOsc0 : List RegSpec :=
  [ ⟨0x31000, 16, 0x20, 0x400, [⟨0, 6, .rw, .any⟩, ⟨6, 1, .rw, .any⟩, ⟨8, 8, .rw, .any⟩]⟩,
    ⟨0x31004, 16, 0x20, 0x0, [⟨0, 32, .rw, .any⟩]⟩,
    ⟨0x31008, 16, 0x20, 0x0, [⟨0, 32, .rw, .any⟩]⟩,
    ⟨0x3100C, 16, 0x20, 0x0, [⟨0, 32, .rw, .any⟩]⟩,
    ⟨0x31010, 16, 0x20, 0x0, [⟨0, 32, .rw, .any⟩]⟩,
    ⟨0x31014, 16, 0x20, 0x0, [⟨0, 1, .w1c, .any⟩, ⟨1, 1, .w1c, .any⟩, ⟨8, 8, .ro, .any⟩]⟩,
    ⟨0x31018, 16, 0x20, 0x0, [⟨0, 32, .ro, .any⟩]⟩,
    ⟨0x3101C, 16, 0x20, 0x0, [⟨0, 32, .ro, .any⟩]⟩ ]

/-! LVS_CFG. -/
def LVS_CFG_REFHOLD : Field := ⟨0x38000, 0, 8⟩
/-! LVS_LATCH. -/
def LVS_LATCH_LSEQ : Field := ⟨0x38004, 0, 16⟩
/-! LVS_ARMSTAT, an array of 12. -/
def LVS_ARMSTAT_LEVEL (n : Nat) : Field := ⟨0x38100 + 0x10 * n, 0, 13⟩
def LVS_ARMSTAT_NCHG (n : Nat) : Field := ⟨0x38100 + 0x10 * n, 14, 4⟩
def LVS_ARMSTAT_TRIM (n : Nat) : Field := ⟨0x38100 + 0x10 * n, 18, 1⟩
def LVS_ARMSTAT_TNEG (n : Nat) : Field := ⟨0x38100 + 0x10 * n, 19, 1⟩
def LVS_ARMSTAT_LCLAMP (n : Nat) : Field := ⟨0x38100 + 0x10 * n, 20, 1⟩
def LVS_ARMSTAT_HOLDLVL (n : Nat) : Field := ⟨0x38100 + 0x10 * n, 21, 1⟩
def LVS_ARMSTAT_QUAL (n : Nat) : Field := ⟨0x38100 + 0x10 * n, 22, 3⟩
/-! LVS_RES, an array of 12. -/
def LVS_RES_V (n : Nat) : Field := ⟨0x38104 + 0x10 * n, 0, 32⟩
/-! LVS_VL, an array of 12. -/
def LVS_VL_V (n : Nat) : Field := ⟨0x38108 + 0x10 * n, 0, 32⟩
/-! LVS_REF, an array of 12. -/
def LVS_REF_V (n : Nat) : Field := ⟨0x3810C + 0x10 * n, 0, 32⟩
/-! LVS_NOCAND_CNT. -/
def LVS_NOCAND_CNT_COUNT : Field := ⟨0x38200, 0, 31⟩
def LVS_NOCAND_CNT_SAT : Field := ⟨0x38200, 31, 1⟩
/-! LVS_RESCLIP_CNT. -/
def LVS_RESCLIP_CNT_COUNT : Field := ⟨0x38204, 0, 31⟩
def LVS_RESCLIP_CNT_SAT : Field := ⟨0x38204, 31, 1⟩
/-! LVS_DTCUT_CNT. -/
def LVS_DTCUT_CNT_COUNT : Field := ⟨0x38208, 0, 31⟩
def LVS_DTCUT_CNT_SAT : Field := ⟨0x38208, 31, 1⟩
/-! LVS_LCLAMP_CNT. -/
def LVS_LCLAMP_CNT_COUNT : Field := ⟨0x3820C, 0, 31⟩
def LVS_LCLAMP_CNT_SAT : Field := ⟨0x3820C, 31, 1⟩

/-- Registers of block LVS, part 0 (R591). -/
def regsLvs0 : List RegSpec :=
  [ ⟨0x38000, 1, 0x4, 0x10, [⟨0, 8, .st, .span 1 255⟩]⟩,
    ⟨0x38004, 1, 0x4, 0x0, [⟨0, 16, .ro, .any⟩]⟩,
    ⟨0x38100, 12, 0x10, 0x1400000, [⟨0, 13, .ro, .any⟩, ⟨14, 4, .ro, .any⟩, ⟨18, 1, .ro, .any⟩, ⟨19, 1, .ro, .any⟩, ⟨20, 1, .ro, .any⟩, ⟨21, 1, .ro, .any⟩, ⟨22, 3, .ro, .any⟩]⟩,
    ⟨0x38104, 12, 0x10, 0x0, [⟨0, 32, .ro, .any⟩]⟩,
    ⟨0x38108, 12, 0x10, 0x0, [⟨0, 32, .ro, .any⟩]⟩,
    ⟨0x3810C, 12, 0x10, 0x0, [⟨0, 32, .ro, .any⟩]⟩,
    ⟨0x38200, 1, 0x4, 0x0, [⟨0, 31, .ro, .any⟩, ⟨31, 1, .w1c, .any⟩]⟩,
    ⟨0x38204, 1, 0x4, 0x0, [⟨0, 31, .ro, .any⟩, ⟨31, 1, .w1c, .any⟩]⟩,
    ⟨0x38208, 1, 0x4, 0x0, [⟨0, 31, .ro, .any⟩, ⟨31, 1, .w1c, .any⟩]⟩,
    ⟨0x3820C, 1, 0x4, 0x0, [⟨0, 31, .ro, .any⟩, ⟨31, 1, .w1c, .any⟩]⟩ ]

/-! SEL_LATCH. -/
def SEL_LATCH_LSEQ : Field := ⟨0x40000, 0, 16⟩
/-! SEL_ARMSTAT, an array of 12. -/
def SEL_ARMSTAT_NAVAIL (n : Nat) : Field := ⟨0x40100 + 0x10 * n, 0, 12⟩
def SEL_ARMSTAT_SHORT (n : Nat) : Field := ⟨0x40100 + 0x10 * n, 12, 1⟩
def SEL_ARMSTAT_SPLIT (n : Nat) : Field := ⟨0x40100 + 0x10 * n, 13, 1⟩
def SEL_ARMSTAT_PINCONF (n : Nat) : Field := ⟨0x40100 + 0x10 * n, 14, 1⟩
def SEL_ARMSTAT_NSEL (n : Nat) : Field := ⟨0x40100 + 0x10 * n, 16, 12⟩
/-! SEL_THR, an array of 12. -/
def SEL_THR_BIN (n : Nat) : Field := ⟨0x40104 + 0x10 * n, 0, 12⟩
def SEL_THR_FROMBIN (n : Nat) : Field := ⟨0x40104 + 0x10 * n, 16, 12⟩
/-! SEL_TMEAN, an array of 12. -/
def SEL_TMEAN_V (n : Nat) : Field := ⟨0x40108 + 0x10 * n, 0, 32⟩
/-! SEL_REF, an array of 12. -/
def SEL_REF_NREF (n : Nat) : Field := ⟨0x4010C + 0x10 * n, 0, 8⟩
def SEL_REF_NDUE (n : Nat) : Field := ⟨0x4010C + 0x10 * n, 8, 8⟩
/-! SEL_PRED_CNT. -/
def SEL_PRED_CNT_COUNT : Field := ⟨0x40200, 0, 31⟩
def SEL_PRED_CNT_SAT : Field := ⟨0x40200, 31, 1⟩
/-! SEL_PINCONF_CNT. -/
def SEL_PINCONF_CNT_COUNT : Field := ⟨0x40204, 0, 31⟩
def SEL_PINCONF_CNT_SAT : Field := ⟨0x40204, 31, 1⟩
/-! SEL_REFDEF_CNT. -/
def SEL_REFDEF_CNT_COUNT : Field := ⟨0x40208, 0, 31⟩
def SEL_REFDEF_CNT_SAT : Field := ⟨0x40208, 31, 1⟩
/-! SEL_HARDREF_CNT. -/
def SEL_HARDREF_CNT_COUNT : Field := ⟨0x4020C, 0, 31⟩
def SEL_HARDREF_CNT_SAT : Field := ⟨0x4020C, 31, 1⟩

/-- Registers of block SEL, part 0 (R591). -/
def regsSel0 : List RegSpec :=
  [ ⟨0x40000, 1, 0x4, 0x0, [⟨0, 16, .ro, .any⟩]⟩,
    ⟨0x40100, 12, 0x10, 0x0, [⟨0, 12, .ro, .any⟩, ⟨12, 1, .ro, .any⟩, ⟨13, 1, .ro, .any⟩, ⟨14, 1, .ro, .any⟩, ⟨16, 12, .ro, .any⟩]⟩,
    ⟨0x40104, 12, 0x10, 0x0, [⟨0, 12, .ro, .any⟩, ⟨16, 12, .ro, .any⟩]⟩,
    ⟨0x40108, 12, 0x10, 0x0, [⟨0, 32, .ro, .any⟩]⟩,
    ⟨0x4010C, 12, 0x10, 0x0, [⟨0, 8, .ro, .any⟩, ⟨8, 8, .ro, .any⟩]⟩,
    ⟨0x40200, 1, 0x4, 0x0, [⟨0, 31, .ro, .any⟩, ⟨31, 1, .w1c, .any⟩]⟩,
    ⟨0x40204, 1, 0x4, 0x0, [⟨0, 31, .ro, .any⟩, ⟨31, 1, .w1c, .any⟩]⟩,
    ⟨0x40208, 1, 0x4, 0x0, [⟨0, 31, .ro, .any⟩, ⟨31, 1, .w1c, .any⟩]⟩,
    ⟨0x4020C, 1, 0x4, 0x0, [⟨0, 31, .ro, .any⟩, ⟨31, 1, .w1c, .any⟩]⟩ ]

/-! PRT_DEMAND. -/
def PRT_DEMAND_SI_LAT : Field := ⟨0x48000, 0, 8⟩
def PRT_DEMAND_RX_LAT : Field := ⟨0x48000, 8, 8⟩
def PRT_DEMAND_SI_NOW : Field := ⟨0x48000, 16, 8⟩
def PRT_DEMAND_RX_NOW : Field := ⟨0x48000, 24, 8⟩
/-! PRT_RESET. -/
def PRT_RESET_KEY : Field := ⟨0x48004, 0, 16⟩
/-! PRT_RSTSTAT. -/
def PRT_RSTSTAT_DONE : Field := ⟨0x48008, 0, 1⟩
def PRT_RSTSTAT_FAILED : Field := ⟨0x48008, 1, 1⟩
def PRT_RSTSTAT_REASON : Field := ⟨0x48008, 4, 4⟩
/-! PRT_SISTAT. -/
def PRT_SISTAT_FA : Field := ⟨0x4800C, 0, 8⟩
def PRT_SISTAT_FB : Field := ⟨0x4800C, 8, 8⟩
def PRT_SISTAT_DISC : Field := ⟨0x4800C, 16, 8⟩
/-! PRT_SOSTAT, an array of 4. -/
def PRT_SOSTAT_FBSTATE (n : Nat) : Field := ⟨0x48010 + 0x4 * n, 0, 3⟩
def PRT_SOSTAT_CHA (n : Nat) : Field := ⟨0x48010 + 0x4 * n, 3, 1⟩
def PRT_SOSTAT_CHB (n : Nat) : Field := ⟨0x48010 + 0x4 * n, 4, 1⟩
def PRT_SOSTAT_FBA (n : Nat) : Field := ⟨0x48010 + 0x4 * n, 5, 1⟩
def PRT_SOSTAT_FBB (n : Nat) : Field := ⟨0x48010 + 0x4 * n, 6, 1⟩
def PRT_SOSTAT_TPRUN (n : Nat) : Field := ⟨0x48010 + 0x4 * n, 7, 1⟩
def PRT_SOSTAT_FREASON (n : Nat) : Field := ⟨0x48010 + 0x4 * n, 8, 4⟩
/-! PRT_RXSTAT, an array of 8. -/
def PRT_RXSTAT_PORT0_UP (n : Nat) : Field := ⟨0x48020 + 0x4 * n, 0, 1⟩
def PRT_RXSTAT_PORT1_UP (n : Nat) : Field := ⟨0x48020 + 0x4 * n, 1, 1⟩
def PRT_RXSTAT_SINGLE (n : Nat) : Field := ⟨0x48020 + 0x4 * n, 2, 1⟩
def PRT_RXSTAT_PERMIT (n : Nat) : Field := ⟨0x48020 + 0x4 * n, 8, 8⟩
/-! PRT_CRC_CNT. -/
def PRT_CRC_CNT_COUNT : Field := ⟨0x48040, 0, 31⟩
def PRT_CRC_CNT_SAT : Field := ⟨0x48040, 31, 1⟩
/-! PRT_SEQ_CNT. -/
def PRT_SEQ_CNT_COUNT : Field := ⟨0x48044, 0, 31⟩
def PRT_SEQ_CNT_SAT : Field := ⟨0x48044, 31, 1⟩
/-! PRT_AGE_CNT. -/
def PRT_AGE_CNT_COUNT : Field := ⟨0x48048, 0, 31⟩
def PRT_AGE_CNT_SAT : Field := ⟨0x48048, 31, 1⟩
/-! PRT_ID_CNT. -/
def PRT_ID_CNT_COUNT : Field := ⟨0x4804C, 0, 31⟩
def PRT_ID_CNT_SAT : Field := ⟨0x4804C, 31, 1⟩
/-! PRT_ONECOPY_CNT. -/
def PRT_ONECOPY_CNT_COUNT : Field := ⟨0x48050, 0, 31⟩
def PRT_ONECOPY_CNT_SAT : Field := ⟨0x48050, 31, 1⟩
/-! PRT_RXDROP_CNT. -/
def PRT_RXDROP_CNT_COUNT : Field := ⟨0x48054, 0, 31⟩
def PRT_RXDROP_CNT_SAT : Field := ⟨0x48054, 31, 1⟩

/-- Registers of block PRT, part 0 (R591). -/
def regsPrt0 : List RegSpec :=
  [ ⟨0x48000, 1, 0x4, 0x0, [⟨0, 8, .ro, .any⟩, ⟨8, 8, .ro, .any⟩, ⟨16, 8, .ro, .any⟩, ⟨24, 8, .ro, .any⟩]⟩,
    ⟨0x48004, 1, 0x4, 0x0, [⟨0, 16, .wo, .any⟩]⟩,
    ⟨0x48008, 1, 0x4, 0x0, [⟨0, 1, .w1c, .any⟩, ⟨1, 1, .w1c, .any⟩, ⟨4, 4, .ro, .any⟩]⟩,
    ⟨0x4800C, 1, 0x4, 0x0, [⟨0, 8, .ro, .any⟩, ⟨8, 8, .ro, .any⟩, ⟨16, 8, .ro, .any⟩]⟩,
    ⟨0x48010, 4, 0x4, 0x0, [⟨0, 3, .ro, .any⟩, ⟨3, 1, .ro, .any⟩, ⟨4, 1, .ro, .any⟩, ⟨5, 1, .ro, .any⟩, ⟨6, 1, .ro, .any⟩, ⟨7, 1, .ro, .any⟩, ⟨8, 4, .ro, .any⟩]⟩,
    ⟨0x48020, 8, 0x4, 0x0, [⟨0, 1, .ro, .any⟩, ⟨1, 1, .ro, .any⟩, ⟨2, 1, .ro, .any⟩, ⟨8, 8, .ro, .any⟩]⟩,
    ⟨0x48040, 1, 0x4, 0x0, [⟨0, 31, .ro, .any⟩, ⟨31, 1, .w1c, .any⟩]⟩,
    ⟨0x48044, 1, 0x4, 0x0, [⟨0, 31, .ro, .any⟩, ⟨31, 1, .w1c, .any⟩]⟩,
    ⟨0x48048, 1, 0x4, 0x0, [⟨0, 31, .ro, .any⟩, ⟨31, 1, .w1c, .any⟩]⟩,
    ⟨0x4804C, 1, 0x4, 0x0, [⟨0, 31, .ro, .any⟩, ⟨31, 1, .w1c, .any⟩]⟩,
    ⟨0x48050, 1, 0x4, 0x0, [⟨0, 31, .ro, .any⟩, ⟨31, 1, .w1c, .any⟩]⟩,
    ⟨0x48054, 1, 0x4, 0x0, [⟨0, 31, .ro, .any⟩, ⟨31, 1, .w1c, .any⟩]⟩ ]

/-! DPX_CFG. -/
def DPX_CFG_PAIRED : Field := ⟨0x50000, 0, 1⟩
def DPX_CFG_UNIT : Field := ⟨0x50000, 1, 1⟩
def DPX_CFG_SKEW_OK : Field := ⟨0x50000, 2, 1⟩
def DPX_CFG_CONFIRM : Field := ⟨0x50000, 8, 8⟩
def DPX_CFG_DVL_TICKS : Field := ⟨0x50000, 16, 4⟩
/-! DPX_STATUS. -/
def DPX_STATUS_ROLE : Field := ⟨0x50004, 0, 3⟩
def DPX_STATUS_DVL_UP : Field := ⟨0x50004, 3, 1⟩
def DPX_STATUS_CURRENT : Field := ⟨0x50004, 4, 1⟩
def DPX_STATUS_TAKEOVER_OK : Field := ⟨0x50004, 5, 1⟩
def DPX_STATUS_DIGEST_OK : Field := ⟨0x50004, 6, 1⟩
def DPX_STATUS_SKEW : Field := ⟨0x50004, 7, 1⟩
def DPX_STATUS_PROLE : Field := ⟨0x50004, 8, 3⟩
def DPX_STATUS_RSTEP : Field := ⟨0x50004, 12, 4⟩
def DPX_STATUS_REASON : Field := ⟨0x50004, 16, 4⟩
/-! DPX_MTOL. -/
def DPX_MTOL_V : Field := ⟨0x50008, 0, 32⟩
/-! DPX_MEASDIFF, an array of 2. -/
def DPX_MEASDIFF_D (n : Nat) : Field := ⟨0x5000C + 0x4 * n, 0, 32⟩
/-! DPX_COMPAT. -/
def DPX_COMPAT_OWN : Field := ⟨0x50014, 0, 16⟩
def DPX_COMPAT_PARTNER : Field := ⟨0x50014, 16, 16⟩
/-! DPX_DIGEST_CNT. -/
def DPX_DIGEST_CNT_COUNT : Field := ⟨0x50020, 0, 31⟩
def DPX_DIGEST_CNT_SAT : Field := ⟨0x50020, 31, 1⟩
/-! DPX_LATE_CNT. -/
def DPX_LATE_CNT_COUNT : Field := ⟨0x50024, 0, 31⟩
def DPX_LATE_CNT_SAT : Field := ⟨0x50024, 31, 1⟩
/-! DPX_NAK_CNT. -/
def DPX_NAK_CNT_COUNT : Field := ⟨0x50028, 0, 31⟩
def DPX_NAK_CNT_SAT : Field := ⟨0x50028, 31, 1⟩
/-! DPX_PATCH_CNT. -/
def DPX_PATCH_CNT_COUNT : Field := ⟨0x5002C, 0, 31⟩
def DPX_PATCH_CNT_SAT : Field := ⟨0x5002C, 31, 1⟩
/-! DPX_RESYNC_CNT. -/
def DPX_RESYNC_CNT_COUNT : Field := ⟨0x50030, 0, 31⟩
def DPX_RESYNC_CNT_SAT : Field := ⟨0x50030, 31, 1⟩
/-! DPX_SWITCH_CNT. -/
def DPX_SWITCH_CNT_COUNT : Field := ⟨0x50034, 0, 31⟩
def DPX_SWITCH_CNT_SAT : Field := ⟨0x50034, 31, 1⟩

/-- Registers of block DPX, part 0 (R591). -/
def regsDpx0 : List RegSpec :=
  [ ⟨0x50000, 1, 0x4, 0x21000, [⟨0, 1, .rw, .any⟩, ⟨1, 1, .rw, .any⟩, ⟨2, 1, .rw, .any⟩, ⟨8, 8, .rw, .span 1 255⟩, ⟨16, 4, .rw, .span 1 15⟩]⟩,
    ⟨0x50004, 1, 0x4, 0x0, [⟨0, 3, .ro, .any⟩, ⟨3, 1, .ro, .any⟩, ⟨4, 1, .ro, .any⟩, ⟨5, 1, .ro, .any⟩, ⟨6, 1, .ro, .any⟩, ⟨7, 1, .ro, .any⟩, ⟨8, 3, .ro, .any⟩, ⟨12, 4, .ro, .any⟩, ⟨16, 4, .ro, .any⟩]⟩,
    ⟨0x50008, 1, 0x4, 0x3C23D70A, [⟨0, 32, .rw, .any⟩]⟩,
    ⟨0x5000C, 2, 0x4, 0x0, [⟨0, 32, .w1c, .any⟩]⟩,
    ⟨0x50014, 1, 0x4, 0x0, [⟨0, 16, .ro, .any⟩, ⟨16, 16, .ro, .any⟩]⟩,
    ⟨0x50020, 1, 0x4, 0x0, [⟨0, 31, .ro, .any⟩, ⟨31, 1, .w1c, .any⟩]⟩,
    ⟨0x50024, 1, 0x4, 0x0, [⟨0, 31, .ro, .any⟩, ⟨31, 1, .w1c, .any⟩]⟩,
    ⟨0x50028, 1, 0x4, 0x0, [⟨0, 31, .ro, .any⟩, ⟨31, 1, .w1c, .any⟩]⟩,
    ⟨0x5002C, 1, 0x4, 0x0, [⟨0, 31, .ro, .any⟩, ⟨31, 1, .w1c, .any⟩]⟩,
    ⟨0x50030, 1, 0x4, 0x0, [⟨0, 31, .ro, .any⟩, ⟨31, 1, .w1c, .any⟩]⟩,
    ⟨0x50034, 1, 0x4, 0x0, [⟨0, 31, .ro, .any⟩, ⟨31, 1, .w1c, .any⟩]⟩ ]

/-! FCL_FSW_LO. -/
def FCL_FSW_LO_F : Field := ⟨0x58000, 0, 32⟩
/-! FCL_FSW_HI. -/
def FCL_FSW_HI_F : Field := ⟨0x58004, 0, 15⟩
/-! FCL_ACTIVE_LO. -/
def FCL_ACTIVE_LO_F : Field := ⟨0x58008, 0, 32⟩
/-! FCL_ACTIVE_HI. -/
def FCL_ACTIVE_HI_F : Field := ⟨0x5800C, 0, 15⟩
/-! FCL_STATUS. -/
def FCL_STATUS_MAXSEV : Field := ⟨0x58010, 0, 3⟩
def FCL_STATUS_DEGRADED : Field := ⟨0x58010, 3, 1⟩
def FCL_STATUS_YIELD : Field := ⟨0x58010, 4, 1⟩
def FCL_STATUS_FIRSTV : Field := ⟨0x58010, 5, 1⟩
def FCL_STATUS_PRIOR : Field := ⟨0x58010, 6, 1⟩
def FCL_STATUS_WRERR : Field := ⟨0x58010, 7, 1⟩
def FCL_STATUS_NSHADOW : Field := ⟨0x58010, 8, 4⟩
/-! FCL_CTRL. -/
def FCL_CTRL_FIRST_CLR : Field := ⟨0x58014, 0, 1⟩
def FCL_CTRL_PRIOR_CLR : Field := ⟨0x58014, 1, 1⟩
/-! FCL_LOST_CNT. -/
def FCL_LOST_CNT_COUNT : Field := ⟨0x58018, 0, 31⟩
def FCL_LOST_CNT_SAT : Field := ⟨0x58018, 31, 1⟩
/-! FCL_FSCAUSE. -/
def FCL_FSCAUSE_CAUSE : Field := ⟨0x5801C, 0, 4⟩
/-! FCL_LATCH. -/
def FCL_LATCH_LSEQ : Field := ⟨0x58020, 0, 16⟩
def FCL_LATCH_HEAD : Field := ⟨0x58020, 16, 4⟩
/-! FCL_FIRST, an array of 12. -/
def FCL_FIRST_W (n : Nat) : Field := ⟨0x58100 + 0x4 * n, 0, 32⟩
/-- Word `w` of record register FCL_RECn, at 0x58400 + 0x40 × n + 4 × w (R591). -/
def FCL_REC_W (n w : Nat) : Field := ⟨0x58400 + 0x40 * n + 4 * w, 0, 32⟩

/-- Registers of block FCL, part 0 (R591). -/
def regsFcl0 : List RegSpec :=
  [ ⟨0x58000, 1, 0x4, 0x0, [⟨0, 32, .w1c, .any⟩]⟩,
    ⟨0x58004, 1, 0x4, 0x0, [⟨0, 15, .w1c, .any⟩]⟩,
    ⟨0x58008, 1, 0x4, 0x0, [⟨0, 32, .ro, .any⟩]⟩,
    ⟨0x5800C, 1, 0x4, 0x0, [⟨0, 15, .ro, .any⟩]⟩,
    ⟨0x58010, 1, 0x4, 0x0, [⟨0, 3, .ro, .any⟩, ⟨3, 1, .ro, .any⟩, ⟨4, 1, .ro, .any⟩, ⟨5, 1, .ro, .any⟩, ⟨6, 1, .ro, .any⟩, ⟨7, 1, .w1c, .any⟩, ⟨8, 4, .ro, .any⟩]⟩,
    ⟨0x58014, 1, 0x4, 0x0, [⟨0, 1, .w1s, .any⟩, ⟨1, 1, .w1s, .any⟩]⟩,
    ⟨0x58018, 1, 0x4, 0x0, [⟨0, 31, .ro, .any⟩, ⟨31, 1, .w1c, .any⟩]⟩,
    ⟨0x5801C, 1, 0x4, 0x0, [⟨0, 4, .ro, .any⟩]⟩,
    ⟨0x58020, 1, 0x4, 0x0, [⟨0, 16, .ro, .any⟩, ⟨16, 4, .ro, .any⟩]⟩,
    ⟨0x58100, 12, 0x4, 0x0, [⟨0, 32, .ro, .any⟩]⟩,
    ⟨0x58400, 16, 0x40, 0, [⟨0, 32, .ro, .any⟩]⟩,
    ⟨0x58404, 16, 0x40, 0, [⟨0, 32, .ro, .any⟩]⟩ ]

/-- Registers of block FCL, part 1 (R591). -/
def regsFcl1 : List RegSpec :=
  [ ⟨0x58408, 16, 0x40, 0, [⟨0, 32, .ro, .any⟩]⟩,
    ⟨0x5840C, 16, 0x40, 0, [⟨0, 32, .ro, .any⟩]⟩,
    ⟨0x58410, 16, 0x40, 0, [⟨0, 32, .ro, .any⟩]⟩,
    ⟨0x58414, 16, 0x40, 0, [⟨0, 32, .ro, .any⟩]⟩,
    ⟨0x58418, 16, 0x40, 0, [⟨0, 32, .ro, .any⟩]⟩,
    ⟨0x5841C, 16, 0x40, 0, [⟨0, 32, .ro, .any⟩]⟩,
    ⟨0x58420, 16, 0x40, 0, [⟨0, 32, .ro, .any⟩]⟩,
    ⟨0x58424, 16, 0x40, 0, [⟨0, 32, .ro, .any⟩]⟩,
    ⟨0x58428, 16, 0x40, 0, [⟨0, 32, .ro, .any⟩]⟩,
    ⟨0x5842C, 16, 0x40, 0, [⟨0, 32, .ro, .any⟩]⟩ ]

/-! BEN_CFG. -/
def BEN_CFG_SPLIT : Field := ⟨0x60000, 0, 1⟩
def BEN_CFG_CHG_WAIT : Field := ⟨0x60000, 8, 8⟩
/-! BEN_PSTAT. -/
def BEN_PSTAT_PSTATE : Field := ⟨0x60004, 0, 2⟩
def BEN_PSTAT_WRERR : Field := ⟨0x60004, 2, 1⟩
def BEN_PSTAT_BENCH_OK : Field := ⟨0x60004, 8, 8⟩
/-! BEN_IMGID_LO. -/
def BEN_IMGID_LO_ID : Field := ⟨0x60008, 0, 32⟩
/-! BEN_IMGID_HI. -/
def BEN_IMGID_HI_ID : Field := ⟨0x6000C, 0, 32⟩
/-! BEN_RIO. -/
def BEN_RIO_LOST : Field := ⟨0x60010, 0, 32⟩
/-! BEN_NFORCE. -/
def BEN_NFORCE_N : Field := ⟨0x60014, 0, 9⟩
/-! BEN_OVR_CNT. -/
def BEN_OVR_CNT_COUNT : Field := ⟨0x60100, 0, 31⟩
def BEN_OVR_CNT_SAT : Field := ⟨0x60100, 31, 1⟩
/-! BEN_SKIP_CNT. -/
def BEN_SKIP_CNT_COUNT : Field := ⟨0x60104, 0, 31⟩
def BEN_SKIP_CNT_SAT : Field := ⟨0x60104, 31, 1⟩
/-! BEN_EVOVR_CNT. -/
def BEN_EVOVR_CNT_COUNT : Field := ⟨0x60108, 0, 31⟩
def BEN_EVOVR_CNT_SAT : Field := ⟨0x60108, 31, 1⟩
/-! BEN_JREPL_CNT. -/
def BEN_JREPL_CNT_COUNT : Field := ⟨0x6010C, 0, 31⟩
def BEN_JREPL_CNT_SAT : Field := ⟨0x6010C, 31, 1⟩
/-! BEN_JERR_CNT. -/
def BEN_JERR_CNT_COUNT : Field := ⟨0x60110, 0, 31⟩
def BEN_JERR_CNT_SAT : Field := ⟨0x60110, 31, 1⟩
/-! BEN_TSTAT, an array of 96. -/
def BEN_TSTAT_TSTATE (n : Nat) : Field := ⟨0x61000 + 0x10 * n, 0, 2⟩
def BEN_TSTAT_EXC (n : Nat) : Field := ⟨0x61000 + 0x10 * n, 2, 1⟩
def BEN_TSTAT_PEND (n : Nat) : Field := ⟨0x61000 + 0x10 * n, 3, 1⟩
def BEN_TSTAT_EXEC (n : Nat) : Field := ⟨0x61000 + 0x10 * n, 4, 4⟩
def BEN_TSTAT_OVRRUN (n : Nat) : Field := ⟨0x61000 + 0x10 * n, 8, 8⟩
/-! BEN_TNEXT, an array of 96. -/
def BEN_TNEXT_NEXT (n : Nat) : Field := ⟨0x61004 + 0x10 * n, 0, 32⟩
/-! BEN_TLAST, an array of 96. -/
def BEN_TLAST_NS (n : Nat) : Field := ⟨0x61008 + 0x10 * n, 0, 32⟩
/-! BEN_TMAX, an array of 96. -/
def BEN_TMAX_NS (n : Nat) : Field := ⟨0x6100C + 0x10 * n, 0, 32⟩

/-- Registers of block BEN, part 0 (R591). -/
def regsBen0 : List RegSpec :=
  [ ⟨0x60000, 1, 0x4, 0x800, [⟨0, 1, .rw, .any⟩, ⟨8, 8, .rw, .span 1 255⟩]⟩,
    ⟨0x60004, 1, 0x4, 0xFF00, [⟨0, 2, .ro, .any⟩, ⟨2, 1, .w1c, .any⟩, ⟨8, 8, .ro, .any⟩]⟩,
    ⟨0x60008, 1, 0x4, 0x0, [⟨0, 32, .ro, .any⟩]⟩,
    ⟨0x6000C, 1, 0x4, 0x0, [⟨0, 32, .ro, .any⟩]⟩,
    ⟨0x60010, 1, 0x4, 0x0, [⟨0, 32, .ro, .any⟩]⟩,
    ⟨0x60014, 1, 0x4, 0x0, [⟨0, 9, .ro, .any⟩]⟩,
    ⟨0x60100, 1, 0x4, 0x0, [⟨0, 31, .ro, .any⟩, ⟨31, 1, .w1c, .any⟩]⟩,
    ⟨0x60104, 1, 0x4, 0x0, [⟨0, 31, .ro, .any⟩, ⟨31, 1, .w1c, .any⟩]⟩,
    ⟨0x60108, 1, 0x4, 0x0, [⟨0, 31, .ro, .any⟩, ⟨31, 1, .w1c, .any⟩]⟩,
    ⟨0x6010C, 1, 0x4, 0x0, [⟨0, 31, .ro, .any⟩, ⟨31, 1, .w1c, .any⟩]⟩,
    ⟨0x60110, 1, 0x4, 0x0, [⟨0, 31, .ro, .any⟩, ⟨31, 1, .w1c, .any⟩]⟩,
    ⟨0x61000, 96, 0x10, 0x0, [⟨0, 2, .ro, .any⟩, ⟨2, 1, .w1c, .any⟩, ⟨3, 1, .ro, .any⟩, ⟨4, 4, .ro, .any⟩, ⟨8, 8, .ro, .any⟩]⟩ ]

/-- Registers of block BEN, part 1 (R591). -/
def regsBen1 : List RegSpec :=
  [ ⟨0x61004, 96, 0x10, 0x0, [⟨0, 32, .ro, .any⟩]⟩,
    ⟨0x61008, 96, 0x10, 0x0, [⟨0, 32, .ro, .any⟩]⟩,
    ⟨0x6100C, 96, 0x10, 0x0, [⟨0, 32, .rw, .any⟩]⟩ ]

/-! FMN_CFG. -/
def FMN_CFG_SVCAFF : Field := ⟨0x68000, 0, 16⟩
def FMN_CFG_STALL_TICKS : Field := ⟨0x68000, 16, 16⟩
/-! FMN_STATUS. -/
def FMN_STATUS_INFLIGHT : Field := ⟨0x68004, 0, 9⟩
def FMN_STATUS_FETCHSTOP : Field := ⟨0x68004, 9, 1⟩
def FMN_STATUS_WRERR : Field := ⟨0x68004, 10, 1⟩
/-! FMN_LATCH. -/
def FMN_LATCH_LSEQ : Field := ⟨0x68010, 0, 16⟩
/-! FMN_TMO_CNT. -/
def FMN_TMO_CNT_COUNT : Field := ⟨0x68020, 0, 31⟩
def FMN_TMO_CNT_SAT : Field := ⟨0x68020, 31, 1⟩
/-! FMN_COAL_CNT. -/
def FMN_COAL_CNT_COUNT : Field := ⟨0x68024, 0, 31⟩
def FMN_COAL_CNT_SAT : Field := ⟨0x68024, 31, 1⟩
/-! FMN_BP_CNT. -/
def FMN_BP_CNT_COUNT : Field := ⟨0x68028, 0, 31⟩
def FMN_BP_CNT_SAT : Field := ⟨0x68028, 31, 1⟩
/-! FMN_PREEMPT_CNT. -/
def FMN_PREEMPT_CNT_COUNT : Field := ⟨0x6802C, 0, 31⟩
def FMN_PREEMPT_CNT_SAT : Field := ⟨0x6802C, 31, 1⟩
/-! FMN_FLOWCFG, an array of 48. -/
def FMN_FLOWCFG_KIND (n : Nat) : Field := ⟨0x68100 + 0x8 * n, 0, 1⟩
def FMN_FLOWCFG_PRIO (n : Nat) : Field := ⟨0x68100 + 0x8 * n, 4, 4⟩
def FMN_FLOWCFG_SERVERS (n : Nat) : Field := ⟨0x68100 + 0x8 * n, 8, 5⟩
/-! FMN_FLOWSTAT, an array of 48. -/
def FMN_FLOWSTAT_QUEUED (n : Nat) : Field := ⟨0x68104 + 0x8 * n, 0, 8⟩
def FMN_FLOWSTAT_ROBOCC (n : Nat) : Field := ⟨0x68104 + 0x8 * n, 8, 8⟩
def FMN_FLOWSTAT_INSVC (n : Nat) : Field := ⟨0x68104 + 0x8 * n, 16, 5⟩
def FMN_FLOWSTAT_BP (n : Nat) : Field := ⟨0x68104 + 0x8 * n, 21, 1⟩
/-! FMN_CTXSTAT, an array of 256. -/
def FMN_CTXSTAT_CSTATE (n : Nat) : Field := ⟨0x69000 + 0x20 * n, 0, 3⟩
def FMN_CTXSTAT_ALL (n : Nat) : Field := ⟨0x69000 + 0x20 * n, 3, 1⟩
def FMN_CTXSTAT_PRIO (n : Nat) : Field := ⟨0x69000 + 0x20 * n, 4, 4⟩
def FMN_CTXSTAT_EXEC (n : Nat) : Field := ⟨0x69000 + 0x20 * n, 8, 4⟩
def FMN_CTXSTAT_FLOW (n : Nat) : Field := ⟨0x69000 + 0x20 * n, 12, 6⟩
/-! FMN_FLAGS_LO, an array of 256. -/
def FMN_FLAGS_LO_F (n : Nat) : Field := ⟨0x69004 + 0x20 * n, 0, 32⟩
/-! FMN_FLAGS_HI, an array of 256. -/
def FMN_FLAGS_HI_F (n : Nat) : Field := ⟨0x69008 + 0x20 * n, 0, 32⟩
/-! FMN_MASK_LO, an array of 256. -/
def FMN_MASK_LO_M (n : Nat) : Field := ⟨0x6900C + 0x20 * n, 0, 32⟩
/-! FMN_MASK_HI, an array of 256. -/
def FMN_MASK_HI_M (n : Nat) : Field := ⟨0x69010 + 0x20 * n, 0, 32⟩
/-! FMN_REL, an array of 256. -/
def FMN_REL_FLAG (n : Nat) : Field := ⟨0x69014 + 0x20 * n, 0, 6⟩
/-! FMN_TMO, an array of 256. -/
def FMN_TMO_LEFT (n : Nat) : Field := ⟨0x69018 + 0x20 * n, 0, 16⟩

/-- Registers of block FMN, part 0 (R591). -/
def regsFmn0 : List RegSpec :=
  [ ⟨0x68000, 1, 0x4, 0x3E80008, [⟨0, 16, .rw, .any⟩, ⟨16, 16, .rw, .span 1 65535⟩]⟩,
    ⟨0x68004, 1, 0x4, 0x0, [⟨0, 9, .ro, .any⟩, ⟨9, 1, .ro, .any⟩, ⟨10, 1, .w1c, .any⟩]⟩,
    ⟨0x68010, 1, 0x4, 0x0, [⟨0, 16, .ro, .any⟩]⟩,
    ⟨0x68020, 1, 0x4, 0x0, [⟨0, 31, .ro, .any⟩, ⟨31, 1, .w1c, .any⟩]⟩,
    ⟨0x68024, 1, 0x4, 0x0, [⟨0, 31, .ro, .any⟩, ⟨31, 1, .w1c, .any⟩]⟩,
    ⟨0x68028, 1, 0x4, 0x0, [⟨0, 31, .ro, .any⟩, ⟨31, 1, .w1c, .any⟩]⟩,
    ⟨0x6802C, 1, 0x4, 0x0, [⟨0, 31, .ro, .any⟩, ⟨31, 1, .w1c, .any⟩]⟩,
    ⟨0x68100, 48, 0x8, 0x2C0, [⟨0, 1, .rw, .any⟩, ⟨4, 4, .rw, .any⟩, ⟨8, 5, .rw, .span 1 16⟩]⟩,
    ⟨0x68104, 48, 0x8, 0x0, [⟨0, 8, .ro, .any⟩, ⟨8, 8, .ro, .any⟩, ⟨16, 5, .ro, .any⟩, ⟨21, 1, .ro, .any⟩]⟩,
    ⟨0x69000, 256, 0x20, 0x0, [⟨0, 3, .ro, .any⟩, ⟨3, 1, .ro, .any⟩, ⟨4, 4, .ro, .any⟩, ⟨8, 4, .ro, .any⟩, ⟨12, 6, .ro, .any⟩]⟩,
    ⟨0x69004, 256, 0x20, 0x0, [⟨0, 32, .ro, .any⟩]⟩,
    ⟨0x69008, 256, 0x20, 0x0, [⟨0, 32, .ro, .any⟩]⟩ ]

/-- Registers of block FMN, part 1 (R591). -/
def regsFmn1 : List RegSpec :=
  [ ⟨0x6900C, 256, 0x20, 0x0, [⟨0, 32, .ro, .any⟩]⟩,
    ⟨0x69010, 256, 0x20, 0x0, [⟨0, 32, .ro, .any⟩]⟩,
    ⟨0x69014, 256, 0x20, 0x0, [⟨0, 6, .ro, .any⟩]⟩,
    ⟨0x69018, 256, 0x20, 0x0, [⟨0, 16, .ro, .any⟩]⟩ ]

/-! LDG_CFG. -/
def LDG_CFG_SNAP_EN : Field := ⟨0x70000, 0, 1⟩
def LDG_CFG_CHAN_EN : Field := ⟨0x70000, 1, 1⟩
def LDG_CFG_OVF : Field := ⟨0x70000, 2, 1⟩
def LDG_CFG_SNAP_DEPTH : Field := ⟨0x70000, 4, 4⟩
def LDG_CFG_CHAN_DEPTH : Field := ⟨0x70000, 8, 4⟩
def LDG_CFG_POOL : Field := ⟨0x70000, 16, 5⟩
/-! LDG_STATUS. -/
def LDG_STATUS_SFILL : Field := ⟨0x70004, 0, 2⟩
def LDG_STATUS_CFILL : Field := ⟨0x70004, 2, 7⟩
def LDG_STATUS_FULL : Field := ⟨0x70004, 9, 1⟩
def LDG_STATUS_WRERR : Field := ⟨0x70004, 10, 1⟩
/-! LDG_ARM. -/
def LDG_ARM_ARM : Field := ⟨0x70008, 0, 32⟩
/-! LDG_DISARM. -/
def LDG_DISARM_DISARM : Field := ⟨0x7000C, 0, 32⟩
/-! LDG_FIRE. -/
def LDG_FIRE_FIRE : Field := ⟨0x70010, 0, 32⟩
/-! LDG_LATCH. -/
def LDG_LATCH_LSEQ : Field := ⟨0x70014, 0, 16⟩
/-! LDG_SEGNEW. -/
def LDG_SEGNEW_SEGID : Field := ⟨0x70018, 0, 16⟩
def LDG_SEGNEW_HELD : Field := ⟨0x70018, 16, 16⟩
/-! LDG_SEGOLD. -/
def LDG_SEGOLD_SEGID : Field := ⟨0x7001C, 0, 16⟩
/-! LDG_FREE. -/
def LDG_FREE_MB : Field := ⟨0x70020, 0, 32⟩
/-! LDG_DROP_CNT. -/
def LDG_DROP_CNT_COUNT : Field := ⟨0x70030, 0, 31⟩
def LDG_DROP_CNT_SAT : Field := ⟨0x70030, 31, 1⟩
/-! LDG_WRAP_CNT. -/
def LDG_WRAP_CNT_COUNT : Field := ⟨0x70034, 0, 31⟩
def LDG_WRAP_CNT_SAT : Field := ⟨0x70034, 31, 1⟩
/-! LDG_GAP_CNT. -/
def LDG_GAP_CNT_COUNT : Field := ⟨0x70038, 0, 31⟩
def LDG_GAP_CNT_SAT : Field := ⟨0x70038, 31, 1⟩
/-! LDG_TSTAT, an array of 32. -/
def LDG_TSTAT_USTATE (n : Nat) : Field := ⟨0x70100 + 0x10 * n, 0, 2⟩
def LDG_TSTAT_INPULSE (n : Nat) : Field := ⟨0x70100 + 0x10 * n, 2, 1⟩
/-! LDG_THOLD, an array of 32. -/
def LDG_THOLD_COUNT (n : Nat) : Field := ⟨0x70104 + 0x10 * n, 0, 31⟩
def LDG_THOLD_SAT (n : Nat) : Field := ⟨0x70104 + 0x10 * n, 31, 1⟩
/-! LDG_TFIRE, an array of 32. -/
def LDG_TFIRE_COUNT (n : Nat) : Field := ⟨0x70108 + 0x10 * n, 0, 31⟩
def LDG_TFIRE_SAT (n : Nat) : Field := ⟨0x70108 + 0x10 * n, 31, 1⟩

/-- Registers of block LDG, part 0 (R591). -/
def regsLdg0 : List RegSpec :=
  [ ⟨0x70000, 1, 0x4, 0x1C0CA0, [⟨0, 1, .rw, .any⟩, ⟨1, 1, .rw, .any⟩, ⟨2, 1, .rw, .any⟩, ⟨4, 4, .rw, .any⟩, ⟨8, 4, .rw, .any⟩, ⟨16, 5, .rw, .span 1 28⟩]⟩,
    ⟨0x70004, 1, 0x4, 0x0, [⟨0, 2, .ro, .any⟩, ⟨2, 7, .ro, .any⟩, ⟨9, 1, .ro, .any⟩, ⟨10, 1, .w1c, .any⟩]⟩,
    ⟨0x70008, 1, 0x4, 0x0, [⟨0, 32, .w1s, .any⟩]⟩,
    ⟨0x7000C, 1, 0x4, 0x0, [⟨0, 32, .wo, .any⟩]⟩,
    ⟨0x70010, 1, 0x4, 0x0, [⟨0, 32, .wo, .any⟩]⟩,
    ⟨0x70014, 1, 0x4, 0x0, [⟨0, 16, .ro, .any⟩]⟩,
    ⟨0x70018, 1, 0x4, 0x0, [⟨0, 16, .ro, .any⟩, ⟨16, 16, .ro, .any⟩]⟩,
    ⟨0x7001C, 1, 0x4, 0x0, [⟨0, 16, .ro, .any⟩]⟩,
    ⟨0x70020, 1, 0x4, 0x0, [⟨0, 32, .ro, .any⟩]⟩,
    ⟨0x70030, 1, 0x4, 0x0, [⟨0, 31, .ro, .any⟩, ⟨31, 1, .w1c, .any⟩]⟩,
    ⟨0x70034, 1, 0x4, 0x0, [⟨0, 31, .ro, .any⟩, ⟨31, 1, .w1c, .any⟩]⟩,
    ⟨0x70038, 1, 0x4, 0x0, [⟨0, 31, .ro, .any⟩, ⟨31, 1, .w1c, .any⟩]⟩ ]

/-- Registers of block LDG, part 1 (R591). -/
def regsLdg1 : List RegSpec :=
  [ ⟨0x70100, 32, 0x10, 0x0, [⟨0, 2, .ro, .any⟩, ⟨2, 1, .ro, .any⟩]⟩,
    ⟨0x70104, 32, 0x10, 0x0, [⟨0, 31, .ro, .any⟩, ⟨31, 1, .w1c, .any⟩]⟩,
    ⟨0x70108, 32, 0x10, 0x0, [⟨0, 31, .ro, .any⟩, ⟨31, 1, .w1c, .any⟩]⟩ ]

/-! HST_CTRL, an array of 16. -/
def HST_CTRL_EN (n : Nat) : Field := ⟨0x78000 + 0x100 * n, 0, 1⟩
/-! HST_STAT, an array of 16. -/
def HST_STAT_STATE (n : Nat) : Field := ⟨0x78004 + 0x100 * n, 0, 2⟩
def HST_STAT_WRERR (n : Nat) : Field := ⟨0x78004 + 0x100 * n, 2, 1⟩
def HST_STAT_ERRCODE (n : Nat) : Field := ⟨0x78004 + 0x100 * n, 8, 8⟩
def HST_STAT_INFLIGHT (n : Nat) : Field := ⟨0x78004 + 0x100 * n, 16, 7⟩
/-! HST_SQBASE_LO, an array of 16. -/
def HST_SQBASE_LO_A (n : Nat) : Field := ⟨0x78008 + 0x100 * n, 0, 32⟩
/-! HST_SQBASE_HI, an array of 16. -/
def HST_SQBASE_HI_A (n : Nat) : Field := ⟨0x7800C + 0x100 * n, 0, 32⟩
/-! HST_CQBASE_LO, an array of 16. -/
def HST_CQBASE_LO_A (n : Nat) : Field := ⟨0x78010 + 0x100 * n, 0, 32⟩
/-! HST_CQBASE_HI, an array of 16. -/
def HST_CQBASE_HI_A (n : Nat) : Field := ⟨0x78014 + 0x100 * n, 0, 32⟩
/-! HST_RING, an array of 16. -/
def HST_RING_SQ_LOG (n : Nat) : Field := ⟨0x78018 + 0x100 * n, 0, 4⟩
def HST_RING_CQ_LOG (n : Nat) : Field := ⟨0x78018 + 0x100 * n, 4, 4⟩
/-! HST_PERM, an array of 16. -/
def HST_PERM_CLASS (n : Nat) : Field := ⟨0x7801C + 0x100 * n, 0, 10⟩
/-! HST_EVMASK, an array of 16. -/
def HST_EVMASK_GROUP (n : Nat) : Field := ⟨0x78020 + 0x100 * n, 0, 6⟩
/-! HST_IRQ, an array of 16. -/
def HST_IRQ_CEN (n : Nat) : Field := ⟨0x78024 + 0x100 * n, 0, 1⟩
def HST_IRQ_EEN (n : Nat) : Field := ⟨0x78024 + 0x100 * n, 1, 1⟩
def HST_IRQ_XEN (n : Nat) : Field := ⟨0x78024 + 0x100 * n, 2, 1⟩
def HST_IRQ_COAL_CNT (n : Nat) : Field := ⟨0x78024 + 0x100 * n, 8, 8⟩
def HST_IRQ_COAL_US (n : Nat) : Field := ⟨0x78024 + 0x100 * n, 16, 16⟩
/-! HST_SQHEAD, an array of 16. -/
def HST_SQHEAD_HEAD (n : Nat) : Field := ⟨0x78028 + 0x100 * n, 0, 12⟩
/-! HST_CQTAIL, an array of 16. -/
def HST_CQTAIL_TAIL (n : Nat) : Field := ⟨0x7802C + 0x100 * n, 0, 12⟩
def HST_CQTAIL_PHASE (n : Nat) : Field := ⟨0x7802C + 0x100 * n, 12, 1⟩
/-! HST_DROP_CNT, an array of 16. -/
def HST_DROP_CNT_COUNT (n : Nat) : Field := ⟨0x78030 + 0x100 * n, 0, 31⟩
def HST_DROP_CNT_SAT (n : Nat) : Field := ⟨0x78030 + 0x100 * n, 31, 1⟩
/-! HST_LEAD. -/
def HST_LEAD_BATCH : Field := ⟨0x79000, 0, 4⟩
def HST_LEAD_SNAP : Field := ⟨0x79000, 4, 4⟩
def HST_LEAD_PROG : Field := ⟨0x79000, 8, 4⟩
def HST_LEAD_FORCE : Field := ⟨0x79000, 12, 4⟩
def HST_LEAD_DUPLEX : Field := ⟨0x79000, 16, 4⟩
def HST_LEAD_CONV : Field := ⟨0x79000, 20, 4⟩

/-- Registers of block HST, part 0 (R591). -/
def regsHst0 : List RegSpec :=
  [ ⟨0x78000, 16, 0x100, 0x0, [⟨0, 1, .rw, .any⟩]⟩,
    ⟨0x78004, 16, 0x100, 0x0, [⟨0, 2, .ro, .any⟩, ⟨2, 1, .w1c, .any⟩, ⟨8, 8, .ro, .any⟩, ⟨16, 7, .ro, .any⟩]⟩,
    ⟨0x78008, 16, 0x100, 0x0, [⟨0, 32, .rw, .any⟩]⟩,
    ⟨0x7800C, 16, 0x100, 0x0, [⟨0, 32, .rw, .any⟩]⟩,
    ⟨0x78010, 16, 0x100, 0x0, [⟨0, 32, .rw, .any⟩]⟩,
    ⟨0x78014, 16, 0x100, 0x0, [⟨0, 32, .rw, .any⟩]⟩,
    ⟨0x78018, 16, 0x100, 0x44, [⟨0, 4, .rw, .any⟩, ⟨4, 4, .rw, .any⟩]⟩,
    ⟨0x7801C, 16, 0x100, 0x86, [⟨0, 10, .rw, .any⟩]⟩,
    ⟨0x78020, 16, 0x100, 0x0, [⟨0, 6, .rw, .any⟩]⟩,
    ⟨0x78024, 16, 0x100, 0x100, [⟨0, 1, .rw, .any⟩, ⟨1, 1, .rw, .any⟩, ⟨2, 1, .rw, .any⟩, ⟨8, 8, .rw, .span 1 255⟩, ⟨16, 16, .rw, .any⟩]⟩,
    ⟨0x78028, 16, 0x100, 0x0, [⟨0, 12, .ro, .any⟩]⟩,
    ⟨0x7802C, 16, 0x100, 0x0, [⟨0, 12, .ro, .any⟩, ⟨12, 1, .ro, .any⟩]⟩ ]

/-- Registers of block HST, part 1 (R591). -/
def regsHst1 : List RegSpec :=
  [ ⟨0x78030, 16, 0x100, 0x0, [⟨0, 31, .ro, .any⟩, ⟨31, 1, .w1c, .any⟩]⟩,
    ⟨0x79000, 1, 0x4, 0x333313, [⟨0, 4, .rw, .span 2 15⟩, ⟨4, 4, .rw, .span 1 15⟩, ⟨8, 4, .rw, .span 2 15⟩, ⟨12, 4, .rw, .span 2 15⟩, ⟨16, 4, .rw, .span 2 15⟩, ⟨20, 4, .rw, .span 2 15⟩]⟩ ]

/-! NET_CFG. -/
def NET_CFG_PORTEN : Field := ⟨0x80000, 0, 4⟩
def NET_CFG_ANEG : Field := ⟨0x80000, 4, 4⟩
def NET_CFG_FORGET : Field := ⟨0x80000, 16, 10⟩
/-! NET_PTPCFG. -/
def NET_PTPCFG_ROLE : Field := ⟨0x80004, 0, 2⟩
def NET_PTPCFG_SPAIR : Field := ⟨0x80004, 2, 1⟩
def NET_PTPCFG_DOMAIN : Field := ⟨0x80004, 8, 8⟩
def NET_PTPCFG_PRIO1 : Field := ⟨0x80004, 16, 8⟩
def NET_PTPCFG_PRIO2 : Field := ⟨0x80004, 24, 8⟩
/-! NET_GOOSECFG. -/
def NET_GOOSECFG_T1 : Field := ⟨0x80008, 0, 16⟩
def NET_GOOSECFG_T0 : Field := ⟨0x80008, 16, 16⟩
/-! NET_PORTSTAT, an array of 4. -/
def NET_PORTSTAT_LINK (n : Nat) : Field := ⟨0x80100 + 0x10 * n, 0, 1⟩
def NET_PORTSTAT_PTPSTATE (n : Nat) : Field := ⟨0x80100 + 0x10 * n, 1, 3⟩
/-! NET_TXDLY, an array of 4. -/
def NET_TXDLY_D (n : Nat) : Field := ⟨0x80104 + 0x10 * n, 0, 16⟩
/-! NET_RXDLY, an array of 4. -/
def NET_RXDLY_D (n : Nat) : Field := ⟨0x80108 + 0x10 * n, 0, 16⟩
/-! NET_MPD, an array of 4. -/
def NET_MPD_D (n : Nat) : Field := ⟨0x8010C + 0x10 * n, 0, 32⟩
/-! NET_FCS_CNT, an array of 4. -/
def NET_FCS_CNT_COUNT (n : Nat) : Field := ⟨0x80200 + 0x4 * n, 0, 31⟩
def NET_FCS_CNT_SAT (n : Nat) : Field := ⟨0x80200 + 0x4 * n, 31, 1⟩
/-! NET_DISC_CNT, an array of 4. -/
def NET_DISC_CNT_COUNT (n : Nat) : Field := ⟨0x80210 + 0x4 * n, 0, 31⟩
def NET_DISC_CNT_SAT (n : Nat) : Field := ⟨0x80210 + 0x4 * n, 31, 1⟩
/-! NET_WRONGLAN_CNT, an array of 4. -/
def NET_WRONGLAN_CNT_COUNT (n : Nat) : Field := ⟨0x80220 + 0x4 * n, 0, 31⟩
def NET_WRONGLAN_CNT_SAT (n : Nat) : Field := ⟨0x80220 + 0x4 * n, 31, 1⟩
/-! NET_LINKDN_CNT, an array of 4. -/
def NET_LINKDN_CNT_COUNT (n : Nat) : Field := ⟨0x80230 + 0x4 * n, 0, 31⟩
def NET_LINKDN_CNT_SAT (n : Nat) : Field := ⟨0x80230 + 0x4 * n, 31, 1⟩
/-! NET_DUP_CNT, an array of 2. -/
def NET_DUP_CNT_COUNT (n : Nat) : Field := ⟨0x80240 + 0x4 * n, 0, 31⟩
def NET_DUP_CNT_SAT (n : Nat) : Field := ⟨0x80240 + 0x4 * n, 31, 1⟩
/-! NET_GOOSE_ERR_CNT. -/
def NET_GOOSE_ERR_CNT_COUNT : Field := ⟨0x80248, 0, 31⟩
def NET_GOOSE_ERR_CNT_SAT : Field := ⟨0x80248, 31, 1⟩

/-- Registers of block NET, part 0 (R591). -/
def regsNet0 : List RegSpec :=
  [ ⟨0x80000, 1, 0x4, 0x19000F0, [⟨0, 4, .rw, .any⟩, ⟨4, 4, .rw, .any⟩, ⟨16, 10, .rw, .span 10 1000⟩]⟩,
    ⟨0x80004, 1, 0x4, 0x80800000, [⟨0, 2, .rw, .span 0 2⟩, ⟨2, 1, .rw, .any⟩, ⟨8, 8, .rw, .any⟩, ⟨16, 8, .rw, .any⟩, ⟨24, 8, .rw, .any⟩]⟩,
    ⟨0x80008, 1, 0x4, 0x3E807D0, [⟨0, 16, .rw, .span 100 65535⟩, ⟨16, 16, .rw, .span 1 65535⟩]⟩,
    ⟨0x80100, 4, 0x10, 0x0, [⟨0, 1, .ro, .any⟩, ⟨1, 3, .ro, .any⟩]⟩,
    ⟨0x80104, 4, 0x10, 0x0, [⟨0, 16, .ro, .any⟩]⟩,
    ⟨0x80108, 4, 0x10, 0x0, [⟨0, 16, .ro, .any⟩]⟩,
    ⟨0x8010C, 4, 0x10, 0x0, [⟨0, 32, .ro, .any⟩]⟩,
    ⟨0x80200, 4, 0x4, 0x0, [⟨0, 31, .ro, .any⟩, ⟨31, 1, .w1c, .any⟩]⟩,
    ⟨0x80210, 4, 0x4, 0x0, [⟨0, 31, .ro, .any⟩, ⟨31, 1, .w1c, .any⟩]⟩,
    ⟨0x80220, 4, 0x4, 0x0, [⟨0, 31, .ro, .any⟩, ⟨31, 1, .w1c, .any⟩]⟩,
    ⟨0x80230, 4, 0x4, 0x0, [⟨0, 31, .ro, .any⟩, ⟨31, 1, .w1c, .any⟩]⟩,
    ⟨0x80240, 2, 0x4, 0x0, [⟨0, 31, .ro, .any⟩, ⟨31, 1, .w1c, .any⟩]⟩ ]

/-- Registers of block NET, part 1 (R591). -/
def regsNet1 : List RegSpec :=
  [ ⟨0x80248, 1, 0x4, 0x0, [⟨0, 31, .ro, .any⟩, ⟨31, 1, .w1c, .any⟩]⟩ ]

/-! SEC_BOOTSTAT. -/
def SEC_BOOTSTAT_FWCOPY : Field := ⟨0x88000, 0, 1⟩
def SEC_BOOTSTAT_BDCOPY : Field := ⟨0x88000, 1, 1⟩
def SEC_BOOTSTAT_BDVALID : Field := ⟨0x88000, 2, 1⟩
def SEC_BOOTSTAT_CAUSE : Field := ⟨0x88000, 4, 4⟩
def SEC_BOOTSTAT_REASON : Field := ⟨0x88000, 8, 8⟩
/-! SEC_STATUS. -/
def SEC_STATUS_BUSY : Field := ⟨0x88004, 0, 1⟩
def SEC_STATUS_WRERR : Field := ⟨0x88004, 1, 1⟩
def SEC_STATUS_PROG : Field := ⟨0x88004, 2, 8⟩
def SEC_STATUS_REVOKED : Field := ⟨0x88004, 10, 8⟩
/-! SEC_FUSE. -/
def SEC_FUSE_SLOT : Field := ⟨0x88008, 0, 3⟩
def SEC_FUSE_KEY : Field := ⟨0x88008, 8, 8⟩
/-! SEC_EPOCH. -/
def SEC_EPOCH_FW_FLOOR : Field := ⟨0x8800C, 0, 6⟩
def SEC_EPOCH_BD_FLOOR : Field := ⟨0x8800C, 6, 6⟩
def SEC_EPOCH_PRG_FLOOR : Field := ⟨0x8800C, 12, 6⟩
def SEC_EPOCH_GO_FW : Field := ⟨0x8800C, 18, 1⟩
def SEC_EPOCH_GO_BD : Field := ⟨0x8800C, 19, 1⟩
def SEC_EPOCH_GO_PRG : Field := ⟨0x8800C, 20, 1⟩
/-! SEC_KEYDATA, an array of 8. -/
def SEC_KEYDATA_W (n : Nat) : Field := ⟨0x88010 + 0x4 * n, 0, 32⟩
/-! SEC_CERTLEN. -/
def SEC_CERTLEN_LEN : Field := ⟨0x88030, 0, 12⟩
/-! SEC_VFAIL_CNT. -/
def SEC_VFAIL_CNT_COUNT : Field := ⟨0x88034, 0, 31⟩
def SEC_VFAIL_CNT_SAT : Field := ⟨0x88034, 31, 1⟩
/-! SEC_CERT, an array of 512. -/
def SEC_CERT_W (n : Nat) : Field := ⟨0x88400 + 0x4 * n, 0, 32⟩

/-- Registers of block SEC, part 0 (R591). -/
def regsSec0 : List RegSpec :=
  [ ⟨0x88000, 1, 0x4, 0x0, [⟨0, 1, .ro, .any⟩, ⟨1, 1, .ro, .any⟩, ⟨2, 1, .ro, .any⟩, ⟨4, 4, .ro, .any⟩, ⟨8, 8, .ro, .any⟩]⟩,
    ⟨0x88004, 1, 0x4, 0x0, [⟨0, 1, .ro, .any⟩, ⟨1, 1, .w1c, .any⟩, ⟨2, 8, .ro, .any⟩, ⟨10, 8, .ro, .any⟩]⟩,
    ⟨0x88008, 1, 0x4, 0x0, [⟨0, 3, .wo, .any⟩, ⟨8, 8, .wo, .any⟩]⟩,
    ⟨0x8800C, 1, 0x4, 0x0, [⟨0, 6, .ro, .any⟩, ⟨6, 6, .ro, .any⟩, ⟨12, 6, .ro, .any⟩, ⟨18, 1, .w1s, .any⟩, ⟨19, 1, .w1s, .any⟩, ⟨20, 1, .w1s, .any⟩]⟩,
    ⟨0x88010, 8, 0x4, 0x0, [⟨0, 32, .wo, .any⟩]⟩,
    ⟨0x88030, 1, 0x4, 0x0, [⟨0, 12, .ro, .any⟩]⟩,
    ⟨0x88034, 1, 0x4, 0x0, [⟨0, 31, .ro, .any⟩, ⟨31, 1, .w1c, .any⟩]⟩,
    ⟨0x88400, 512, 0x4, 0x0, [⟨0, 32, .ro, .any⟩]⟩ ]

/-! DBG_HALT. -/
def DBG_HALT_HALT : Field := ⟨0x90000, 0, 16⟩
/-! DBG_RESUME. -/
def DBG_RESUME_RESUME : Field := ⟨0x90004, 0, 16⟩
/-! DBG_STATUS. -/
def DBG_STATUS_REFUSED : Field := ⟨0x90008, 0, 1⟩
def DBG_STATUS_REASON : Field := ⟨0x90008, 4, 4⟩
def DBG_STATUS_EVERHALT : Field := ⟨0x90008, 8, 1⟩
/-! DBG_REFUSE_CNT. -/
def DBG_REFUSE_CNT_COUNT : Field := ⟨0x9000C, 0, 31⟩
def DBG_REFUSE_CNT_SAT : Field := ⟨0x9000C, 31, 1⟩

/-- Registers of block DBG, part 0 (R591). -/
def regsDbg0 : List RegSpec :=
  [ ⟨0x90000, 1, 0x4, 0x0, [⟨0, 16, .w1s, .any⟩]⟩,
    ⟨0x90004, 1, 0x4, 0x0, [⟨0, 16, .wo, .any⟩]⟩,
    ⟨0x90008, 1, 0x4, 0x0, [⟨0, 1, .w1c, .any⟩, ⟨4, 4, .ro, .any⟩, ⟨8, 1, .ro, .any⟩]⟩,
    ⟨0x9000C, 1, 0x4, 0x0, [⟨0, 31, .ro, .any⟩, ⟨31, 1, .w1c, .any⟩]⟩ ]

/-- The whole register map (R591). -/
def regMap : List RegSpec :=
  regsGlb0 ++
  regsPwr0 ++
  regsClk0 ++
  regsTim0 ++
  regsTim1 ++
  regsTck0 ++
  regsLnk0 ++
  regsLnk1 ++
  regsLnp0 ++
  regsMea0 ++
  regsMea1 ++
  regsFlc0 ++
  regsLpe0 ++
  regsOsc0 ++
  regsLvs0 ++
  regsSel0 ++
  regsPrt0 ++
  regsDpx0 ++
  regsFcl0 ++
  regsFcl1 ++
  regsBen0 ++
  regsBen1 ++
  regsFmn0 ++
  regsFmn1 ++
  regsLdg0 ++
  regsLdg1 ++
  regsHst0 ++
  regsHst1 ++
  regsNet0 ++
  regsNet1 ++
  regsSec0 ++
  regsDbg0

/-- The layout of the register at address `a`, if the index lists one (R582). -/
def regSpecAt (a : Nat) : Option RegSpec :=
  regMap.find? fun r =>
    decide (r.base ≤ a ∧ (a - r.base) % r.stride = 0 ∧ (a - r.base) / r.stride < r.count)

/-- The reset word of the register at address `a` (R583): the word of its row in the index, but for the registers whose
rows give a second word for some of their indices. An address the index does not list reads 0 (R582). -/
def regReset (a : Nat) : Word :=
  if a = 0x7801C then 0x3FF
  else if a = 0x78020 then 0x3F
  else if 0x68100 + 8 * 36 ≤ a ∧ a ≤ 0x68100 + 8 * 41 ∧ (a - 0x68100) % 8 = 0 then 0x2C1
  else match regSpecAt a with
    | some r => BitVec.ofNat 32 r.reset
    | none => 0

/-- Whether a value may be written to a field (R600). -/
def Range.allows : Range → Nat → Bool
  | .any, _ => true
  | .span lo hi, v => decide (lo ≤ v ∧ v ≤ hi)
  | .codes l, v => l.contains v

end Sys2Proof.Machine
end

