-- ==== Sys2Proof/Machine/TypesProt.lean ====
section
/-! DEFINITION. The types of fault collection, protection, safety I/O and safe telegrams (chapters 12 and 14). -/

namespace Sys2Proof.Machine

/-- The sources of the Fault Status Word, in the order of their bits (R399). -/
inductive Src where
  | pllUnlock | refLoss | ptpLoss | tickSlip | tickOverrun | laneLos | laneCode | cellMiss
  | cellCrc | cellFault | cellBypassed | armShortfall | armOc | dcOv | cellOv | loopSat
  | loopOsc | repLimit | measOpenwire | measWindow | filtThreshold | svLoss | safeInDiscrepancy | safeTelegram
  | contactorFb | safeOutTest | dpxLink | dpxDigest | referee | benchLockstep | benchOverrun | foremanStall
  | hostProtocol | sramUe | sramCe | dramUe | dramCe | busError | supply | battery
  | temperature | security | ledgerOverflow | remoteIo | watchdog | configIntegrity | armShort
  deriving DecidableEq, Repr

/-- One raise of a source, with what its record carries (R406, R607). `forced` is the severity of a path that acts whatever
the fault table says (R401); 0 where there is none. -/
structure Raise where
  src    : Src
  reason : Byte := 0
  detail : BitVec 16 := 0
  direct : Bool := false
  forced : Nat := 0
  master : BitVec 6 := 0x3F
  access : BitVec 3 := 0
  addr   : BitVec 64 := 0
  deriving DecidableEq, Repr

/-- A fault record (R406). -/
structure FaultRec where
  src    : Byte := 0
  sev    : BitVec 3 := 0
  esc    : Bool := false
  direct : Bool := false
  reason : Byte := 0
  mcnt   : Byte := 0
  detail : BitVec 16 := 0
  master : BitVec 6 := 0
  access : BitVec 3 := 0
  addr   : BitVec 64 := 0
  time   : BitVec 64 := 0
  tick   : Tick := 0
  rseq   : BitVec 16 := 0
  merged : BitVec 64 := 0
  deriving DecidableEq, Repr

/-- A running shadow (R407): the record it belongs to, as it now stands, its mask and its end. -/
structure Shadow where
  record  : FaultRec
  ends    : Nat
  shmask  : BitVec 64
  touched : Bool := false            -- something merged or escalated (R405)
  deriving DecidableEq, Repr

/-- The fault collector outside its registers (chapter 14). -/
structure CollectorSt where
  ring     : List FaultRec := []     -- newest first, at most 16 (R405)
  ringPos  : Nat := 0                -- ring index of the next record
  rseq     : BitVec 16 := 0          -- RSEQ of the next record (R406)
  shadows  : List Shadow := []       -- most recent first
  first    : Option FaultRec := none -- FCL_FIRST (R405); `firstLive` while it follows its record
  firstLive : Bool := false
  latSev   : KeyList Nat := []       -- severity at which each latched bit was raised (R401, R404)
  blockReq : Bool := false           -- a block set has been requested and not yet injected (R346)
  reacted  : Bool := false           -- a BLOCK or TRIP reaction since the last mark (R31)
  markReacted : Bool := false        -- a reaction was resolved at the newest mark (R31)
  toTrip   : Bool := false           -- the converter becomes TRIPPED at the next mark
  toBlock  : Bool := false           -- the converter becomes BLOCKED at the next mark
  setFrom  : Nat := 0                -- Timecount at which the newest block set starts (R346)
  setEnd   : Nat := 0                -- Timecount at which it has been sent
  superseded : Bool := false         -- frames launched from now carry BLOCK_ALL (R347)
  deriving DecidableEq, Repr

/-- A fast-path comparator of arm overcurrent or DC overvoltage (R343, R344). -/
structure FastCmp where
  hits  : Nat := 0
  low   : Nat := 0
  bad   : Nat := 0
  armed : Bool := true
  badDone : Bool := false
  deriving DecidableEq, Repr

/-- A safety input's running state (R349 to R352). -/
structure SafeIn where
  filtA : Bool := false
  filtB : Bool := false
  incSince : Option Nat := none      -- Timecount since which the filtered channels are inconsistent
  incDone : Bool := false            -- this inconsistency has raised SAFE_IN_DISCREPANCY
  disc  : Bool := false              -- a discrepancy is still to clear
  both  : Bool := false              -- both channels have shown demand together since the discrepancy
  deriving DecidableEq, Repr

/-- Feedback states of a safety output (R355), coded as PRT_SOSTATk.FBSTATE. -/
inductive FbState where
  | off | pickup | on | dropout | fault
  deriving DecidableEq, Repr

/-- A safety output's running state (R353 to R355). -/
structure SafeOut where
  energised : Bool := false
  fb        : FbState := .off
  fbA       : Bool := false
  fbB       : Bool := false
  since     : Nat := 0               -- Timecount of entry into the feedback state
  badSince  : Option Nat := none     -- feedback wrong for the state since (T_FBDISC)
  disSince  : Option Nat := none     -- contacts in disagreement since
  pulse     : Option Bool := none    -- the channel a test pulse holds low: B if true (R354)
  tpAt      : Option Nat := none     -- Timecount of the start of the newest test pulse in this ON
  tpB       : Bool := false          -- that pulse was on channel B
  deriving DecidableEq, Repr

/-- A safe-telegram copy kept for its partner (R359). -/
structure TelCopy where
  port  : Fin 2
  at_   : Nat
  bytes : List Byte
  deriving DecidableEq, Repr

/-- A receive connection's running state (R358 to R360). -/
structure RxConn where
  lastSeq  : Option (BitVec 32) := none
  lastAcc  : Nat := 0                -- Timecount of the last accepted telegram, or of enabling
  copies   : List TelCopy := []      -- full-permit copies waiting for their partners, oldest first
  lastCopy0 : Option Nat := none     -- Timecount of the last valid copy on port 0
  lastCopy1 : Option Nat := none
  timedOut : Bool := false
  deriving DecidableEq, Repr

/-- Protection and safety state outside the registers (chapter 12). -/
structure ProtSt where
  oc      : KeyList FastCmp := []    -- per arm
  dcp     : FastCmp := {}
  dcn     : FastCmp := {}
  ins     : KeyList SafeIn := []
  outs    : KeyList SafeOut := []
  rx      : KeyList RxConn := []
  inService : KeyList Nat := []      -- per port: Timecount at which the checker is free (R361)
  key1    : Option Nat := none       -- Timecount of the first key of the reset sequence (R363)
  resetAt : Bool := false            -- a completed sequence waits for the next mark
  deriving DecidableEq, Repr

end Sys2Proof.Machine
end

