-- ==== Sys2Proof/Machine/State.lean ====
section
/-! DEFINITION. The state of the block as plain data, its reset value, and the faults and refusals a command can end
in. Registers stand in one sparse file by address, staged tables in one sparse file by table code and entry, and what
no register shows stands in the records of the type files. -/

namespace Sys2Proof.Machine

/-- Faults: what a command answers instead of a next state. -/
inductive Fault where
  /-- Raised by any command whose list operands do not have the length their format states (WellFormed refuses the
  term). Safe: the spec gives such a frame, entry or record no effect under that command. -/
  | illFormed
  deriving DecidableEq, Repr

/-- Refusals: what the model does not do. -/
inductive Refusal where
  /-- A command without a meaning in this model; no meaning answers it. Safe. -/
  | notModelled (mnemonic : String)
  deriving DecidableEq, Repr

/-- The device. Register values stand in `regs` by address and read as `regReset` where unlisted. Table entries stand
in `tabs` under code × 65,536 + index (R501) and read as the entry's default where unlisted; the cell table stands in
`cells` with the per-cell records. -/
structure State where
  time     : Nat                       -- Timecount in ns (R88)
  tick     : Tick                      -- number of the newest mark (R36)
  markAt   : Nat                       -- Timecount of the newest mark
  dev      : DevState
  conv     : ConvState
  role     : Role
  watch    : Bool                      -- the lanes run, or would run, at Watch rate
  lanesOn  : Bool                      -- the lanes are lit (LANE_START to LANE_STOP, R129)
  litAt    : Option Nat                -- Timecount at which the lasers lit, until the first Watch mark (R129)
  freeze   : Bool                      -- tick freeze requested (R67)
  frozen   : Bool                      -- compute halted since a mark (R67)
  suppress : Nat                       -- ticks without missing-report counting after a switch (R132)
  sentWin  : Option Tick               -- newest window whose frames have left, or that has been lost
  closeDone : Option Tick              -- tick whose upstream window has closed (R34, R423)
  frameEnd : Nat                       -- Timecount at which the frames sent last end (R106)
  misses   : Nat                       -- consecutive windows without a frame (R54)
  missDone : Bool                      -- their BLOCK reaction has been made
  shedding : Bool                      -- a phase has ended after its launch point and none in time since (R51)
  numChange : Option NumChange         -- pending change of the tick numbering (R61 to R64)
  regs     : KeyList Word
  tabs     : KeyList (List Byte)
  cells    : KeyList Cell
  stWrites : List StWrite              -- held ST writes, oldest first (R59)
  rateCancel : Option (Bool × Nat)     -- cancelled rate change: TARGET, and Timecount of its switch mark (R137)
  commitAt : Option Tick               -- mark named by TCK_COMMIT.GO (R59)
  batches  : List Batch                -- accepted, in order of acceptance
  avails   : List AvailChange          -- changes of AVAIL falling due at the next mark (R24)
  clk      : ClockSt
  servo    : ServoSt
  lanes    : KeyList LaneSt
  fwJob    : Option FwJob
  meas     : MeasSt
  chains   : KeyList ChainSt
  slots    : KeyList SlotSt
  loopDone : KeyList SlotOut           -- slot outputs of the last compute phase that has ended (R279, R283)
  loopSeen : KeyList SlotOut           -- as seen outside from the last mark on (R283)
  mbx      : KeyList RefMbx
  osc      : KeyList OscSt
  arms     : KeyList ArmDyn
  run      : Option Phase              -- the compute phase that runs
  waitIn   : List PhaseIn              -- inputs of the phases that wait for it, oldest first (R50)
  ready    : List Phase                -- ended phases whose frames have not left
  prot     : ProtSt
  dpx      : DuplexSt
  fcl      : CollectorSt
  bench    : BenchSt
  fmn      : FmnSt
  ledger   : LedgerSt
  ctxs     : KeyList HostCtx
  accepted : List Accepted             -- host commands with their effective ticks (R498)
  accCount : Nat                       -- acceptances made (R463)
  net      : NetSt
  sec      : SecSt
  pwr      : PwrSt
  pin      : PinSt
  sent     : List Emission             -- what the last command sent out, oldest first
  freeCount : Nat                      -- free values drawn (the model's own, log entry 7)
  pending  : List Instr                -- commands waiting, first in first out
  deriving DecidableEq, Repr

/-- The device after reset (R413, R583): every register at its reset word, every table entry at its default, the
device in BOOT with nothing begun. -/
def State.reset : State where
  time := 0
  tick := 0
  markAt := 0
  dev := .boot
  conv := .dormant
  role := .solo
  watch := false
  lanesOn := false
  litAt := none
  freeze := false
  frozen := false
  suppress := 0
  sentWin := none
  closeDone := none
  frameEnd := 0
  misses := 0
  missDone := false
  shedding := false
  numChange := none
  regs := []
  tabs := []
  cells := []
  stWrites := []
  rateCancel := none
  commitAt := none
  batches := []
  avails := []
  clk := {}
  servo := {}
  lanes := []
  fwJob := none
  meas := {}
  chains := []
  slots := []
  loopDone := []
  loopSeen := []
  mbx := []
  osc := []
  arms := []
  run := none
  waitIn := []
  ready := []
  prot := {}
  dpx := {}
  fcl := {}
  bench := {}
  fmn := {}
  ledger := {}
  ctxs := []
  accepted := []
  accCount := 0
  net := {}
  sec := {}
  pwr := {}
  pin := {}
  sent := []
  freeCount := 0
  pending := []

end Sys2Proof.Machine
end

