-- ==== Sys2Proof/Machine/Ops.lean ====
section
/-! DEFINITION. The named operations over the state that every family uses: reading and writing registers and fields,
saturating counters, staged-table entries, free values, and what the block sends out. -/

namespace Sys2Proof.Machine

/-! Registers. -/

/-- The register word at address `a` (R9, R583). -/
def rdWord (s : State) (a : Nat) : Word := kget (regReset a) s.regs a

/-- Places a register word. -/
def wrWord (a : Nat) (v : Word) (s : State) : State := { s with regs := kset (regReset a) s.regs a v }

/-- The value of a field. -/
def rd (s : State) (f : Field) : Nat := (rdWord s f.addr).toNat / 2 ^ f.lo % 2 ^ f.width

/-- A field read as two's complement. -/
def rdI (s : State) (f : Field) : Int := signed f.width (rd s f)

/-- A one-bit field. -/
def rdB (s : State) (f : Field) : Bool := rd s f == 1

/-- `w` with `width` bits from `lo` on replaced by those of `v`. -/
def putBits (w : Word) (lo width v : Nat) : Word :=
  BitVec.ofNat 32 (w.toNat - w.toNat / 2 ^ lo % 2 ^ width * 2 ^ lo + v % 2 ^ width * 2 ^ lo)

/-- Places a field's value. -/
def wr (f : Field) (v : Nat) (s : State) : State := wrWord f.addr (putBits (rdWord s f.addr) f.lo f.width v) s

/-- Places a one-bit field. -/
def wrB (f : Field) (b : Bool) (s : State) : State := wr f (bitNat b) s

/-- Places a two's-complement value, saturating at the field's range. -/
def wrI (f : Field) (v : Int) (s : State) : State :=
  let top : Int := (2 ^ (f.width - 1) : Nat)
  let c := if v < -top then -top else if top - 1 < v then top - 1 else v
  wr f (c % (2 ^ f.width : Nat)).toNat s

/-- Bit `n` of a field. -/
def rdBit (s : State) (f : Field) (n : Nat) : Bool := (rd s f).testBit n

/-- Sets or clears bit `n` of a field. -/
def wrBit (f : Field) (n : Nat) (b : Bool) (s : State) : State :=
  wr ⟨f.addr, f.lo + n, 1⟩ (bitNat b) s

/-- The power domain a block's counters live in (R569, R584). -/
def domainOf (a : Nat) : Nat :=
  if a < 0x2000 then 0
  else if a < 0x10000 then 1
  else if a < 0x20000 then 5
  else if a < 0x28000 then 11
  else if a < 0x38000 then 2
  else if a < 0x48000 then 1
  else if a < 0x50000 then 0
  else if a < 0x58000 then 7
  else if a < 0x60000 then 0
  else if a < 0x70000 then 3
  else if a < 0x78000 then 10
  else if a < 0x80000 then 8
  else if a < 0x88000 then 9
  else if a < 0x90000 then 12
  else 0

/-- Whether power domain `d` is on (R569). -/
def domainOn (s : State) (d : Nat) : Bool := rdBit s PWR_DOMSTAT_ON d

/-- Counts `n` events in the counter register of field `f` (COUNT at [30:0], SAT at [31]): saturating, SAT set when COUNT
saturates (R410). Counters of a block whose domain is off do not count (R584). -/
def countN (f : Field) (n : Nat) (s : State) : State :=
  if n = 0 || !domainOn s (domainOf f.addr) then s
  else
    let w := rdWord s f.addr
    let c := w.toNat % 2 ^ 31 + n
    if 2 ^ 31 - 1 ≤ c then wrWord f.addr 0xFFFFFFFF s
    else wrWord f.addr (BitVec.ofNat 32 (w.toNat / 2 ^ 31 * 2 ^ 31 + c)) s

/-- Counts one event. -/
def count (f : Field) (s : State) : State := countN f 1 s

/-! Staged tables (R501). -/

/-- Key of entry `i` of table `t`. -/
def tabKey (t i : Nat) : Nat := t * 65536 + i

/-- Size of a table's entries in bytes (R501). -/
def entrySize : Nat → Nat
  | 0x01 => 64
  | 0x02 => 32
  | 0x03 => 16
  | 0x04 => 64
  | 0x05 => 64
  | 0x06 => 256
  | 0x07 => 256
  | 0x08 => 64
  | 0x09 => 768
  | 0x0A => 16
  | 0x0B => 16
  | 0x0C => 4
  | 0x0D => 16
  | 0x0E => 4
  | 0x0F => 48
  | 0x10 => 8
  | 0x11 => 64
  | 0x12 => 64
  | _ => 0

/-- Number of a table's entries (R501). -/
def entryCount : Nat → Nat
  | 0x01 => 12
  | 0x02 => 8192
  | 0x03 => 1
  | 0x04 => 16
  | 0x05 => 40
  | 0x06 => 80
  | 0x07 => 64
  | 0x08 => 1
  | 0x09 => 1
  | 0x0A => 47
  | 0x0B => 64
  | 0x0C => 128
  | 0x0D => 32
  | 0x0E => 256
  | 0x0F => 32
  | 0x10 => 40
  | 0x11 => 32
  | 0x12 => 32
  | _ => 0

/-- Severity of fault source `i` after reset (R399). -/
def defaultSev (i : Nat) : Nat :=
  [4, 1, 1, 1, 2, 2, 1, 1, 1, 1, 1, 2, 4, 4, 4, 1, 2, 1, 2, 1, 1, 2, 5, 5,
   5, 5, 2, 2, 1, 3, 2, 2, 1, 3, 1, 2, 1, 2, 3, 2, 3, 2, 1, 2, 3, 3, 4].getD i 0

/-- An entry of the fault table after reset (R403). -/
def faultDefault (i : Nat) : List Byte :=
  let sev := defaultSev i
  leBytes 1 sev ++ [0] ++ leBytes 2 50 ++ leBytes 4 0 ++ leBytes 8 (if 4 ≤ sev then 0x1B8BE8 else 0)

/-- The protection table after reset (R368). -/
def protDefault : List Byte :=
  (List.replicate 12 (0 :: 1 :: List.replicate 6 0)).flatten ++
  [0, 0, 0x11, 0] ++ leBytes 4 0 ++ [0, 0, 1, 1, 2, 0] ++ List.replicate 18 0 ++
  (List.replicate 8 ([0, 4, 20, 0, 0, 0, 0, 0] : List Byte)).flatten ++
  (List.replicate 4 (leBytes 4 0 ++ leBytes 2 300 ++ leBytes 2 100 ++ leBytes 2 100 ++ leBytes 2 100 ++ leBytes 2 10 ++
    leBytes 2 0)).flatten ++
  (List.replicate 8 (List.replicate 14 0 ++ leBytes 2 100 ++ leBytes 2 500 ++ leBytes 2 50 ++ List.replicate 12 0)).flatten ++
  (List.replicate 8 (List.replicate 14 0 ++ leBytes 2 10 ++ List.replicate 16 0)).flatten

/-- An arm-table entry after reset (R12, R289, R314): HYST 4.0, KT 0.1, BINW 0.25, dwell limits, refresh and recharge. -/
def armDefault : List Byte :=
  List.replicate 32 0 ++ leBytes 4 0x40800000 ++ leBytes 4 0x3DCCCCCD ++ leBytes 4 0x3E800000 ++ leBytes 2 2000 ++
  leBytes 2 4000 ++ [3, 4] ++ leBytes 2 120 ++ List.replicate 12 0

/-- What an unlisted entry reads as: its content after reset. -/
def tabDefault (k : Nat) : List Byte :=
  match k / 65536 with
  | 0x01 => armDefault
  | 0x03 => [1, 2, 3, 8] ++ List.replicate 12 0
  | 0x08 => List.replicate 24 0xFF ++ List.replicate 40 0
  | 0x09 => protDefault
  | 0x0A => faultDefault (k % 65536)
  | 0x0B => leBytes 8 1 ++ [0, 0] ++ leBytes 2 65535 ++ leBytes 4 0
  | 0x0C => [0xFF, 0xFF, 0, 0]
  | t => List.replicate (entrySize t) 0

/-- Entry `i` of table `t` in a set of tables. -/
def tabIn (tabs : KeyList (List Byte)) (t i : Nat) : List Byte :=
  let k := tabKey t i
  kget (tabDefault k) tabs k

/-- Entry `i` of table `t` as committed. -/
def tab (s : State) (t i : Nat) : List Byte := tabIn s.tabs t i

/-- Places an entry. -/
def setTabIn (tabs : KeyList (List Byte)) (t i : Nat) (e : List Byte) : KeyList (List Byte) :=
  let k := tabKey t i
  kset (tabDefault k) tabs k e

/-! Cells. -/

/-- The cell at an address, with its entry, its record and what the device keeps for it. -/
def cellIn (cells : KeyList Cell) (a : Nat) : Cell := kget {} cells a

/-- The cell at an address. -/
def cell (s : State) (a : Nat) : Cell := cellIn s.cells a

/-- Changes the cell at an address. -/
def modCell (a : Nat) (f : Cell → Cell) (s : State) : State := { s with cells := kmod {} s.cells a f }

/-! Outputs and free values. -/

/-- Sends something out. -/
def emit (e : Emission) (s : State) : State := { s with sent := s.sent ++ [e] }

/-- Draws the next free value: a number the spec leaves open (DESIGN CHOICE, log entry 7). -/
def drawFree (s : State) : Nat × State := (Config.freeValue s.freeCount, { s with freeCount := s.freeCount + 1 })

/-- Whether the device does nothing more: in RESET, and in FAILSTOP until an external reset (R27, R412). -/
def dead (s : State) : Bool := s.dev == .failstop || s.dev == .reset

/-- A command with the effect `f` in every device state: it starts a new record of what is sent out, and no effect
reaches the queue. -/
def cmdAlways (f : State → State) (s : State) : Host.Outcome State Fault Refusal :=
  .next { f { s with sent := [] } with pending := s.pending }

/-- A command with the effect `f`, which has none on a dead device. -/
def cmd (f : State → State) (s : State) : Host.Outcome State Fault Refusal :=
  cmdAlways (fun s => if dead s then s else f s) s

/-! Conditions used everywhere. -/

/-- The lane mode in force (R68). -/
def laneMode (s : State) : LaneMode :=
  match rd s TCK_CFG_MODE with
  | 0 => .swift
  | 1 => .dense
  | _ => .deep

/-- Cells per star in the lane mode (R15). -/
def slotsOf : LaneMode → Nat
  | .swift => 32
  | .dense => 64
  | .deep => 128

/-- The tick length in ns at full rate (R37). -/
def tickNs : LaneMode → Nat
  | .swift => 5000
  | .dense => 10000
  | .deep => 20000

/-- The lane mode last applied to the lanes (R16, R64): the schedule, the slot plan and the frames follow it. TCK_CFG.MODE is what the
next lane start applies. -/
def liveMode (s : State) : LaneMode := s.clk.applied

/-- The length of a tick in ns at the rate in force (R41): 100 µs in Watch, otherwise that of the lane mode last applied to
the lanes (R64). -/
def tickLen (s : State) : Nat := if s.watch then 100000 else tickNs s.clk.applied

/-- The number of the newest mark at or before a Timecount, in the numbering in force (R36). -/
def tickAt (s : State) (t : Nat) : Tick := BitVec.ofNat 32 (t / tickLen s)

/-- Signed difference of two tick numbers (R90, R411). -/
def tickDiff (a b : Tick) : Int := (a - b).toInt

/-- `a` is at or after `b` (R411). -/
def tickGe (a b : Tick) : Bool := decide (0 ≤ tickDiff a b)

/-! Marks and fences. -/

/-- The Timecount of the next mark; the first mark of a new numbering where one is fixed before it (R64). -/
def nextMark (s : State) : Nat :=
  let n := (s.markAt / tickLen s + 1) * tickLen s
  match s.numChange with
  | some c => (match c.switchAt with
    | some t => if s.markAt < t ∧ t < n then t else n
    | none => n)
  | none => n

/-- Within the fence of the next mark (R58): 16 ns before it up to its own core cycle. -/
def inFence (s : State) : Bool := decide (nextMark s ≤ s.time + 16)

/-! Register writes (R581, R584). -/

/-- A register answers: in BOOT only those of GLB and SEC. -/
def answers (s : State) (a : Nat) : Bool := s.dev != .boot || decide (a < 0x1000 ∨ (0x88000 ≤ a ∧ a < 0x90000))

/-- A write to a block whose power domain is off is held until the domain is next powered (R584). -/
def holdWrite (a : Nat) (v : Word) (s : State) : State :=
  { s with pwr := { s.pwr with held := s.pwr.held ++ [(a, v)] } }

/-- A write to the register at address `a` with the effect `f`. -/
def regWrite (a : Nat) (v : Word) (f : State → State) (s : State) : State :=
  if !answers s a then s else if !domainOn s (domainOf a) then holdWrite a v s else f s

end Sys2Proof.Machine
end

