-- ==== Sys2Proof/Machine/Frame.lean ====
section
/-! DEFINITION. The schedule figures of the lane modes (R41, R42) and the bytes of ordered sets, headers, slots, mailboxes
and command frames (R135 to R145, R605). -/

namespace Sys2Proof.Machine

/-! The schedule (R41, R42). -/

/-- Code of a lane mode in TCK_CFG.MODE (R68). -/
def LaneMode.code : LaneMode → Nat
  | .swift => 0
  | .dense => 1
  | .deep => 2

/-- Length of a tick in symbols at the rate given. -/
def tickSyms (m : LaneMode) (watch : Bool) : Nat :=
  if watch then 12500 else match m with
    | .swift => 3125
    | .dense => 6250
    | .deep => 12500

/-- First symbol of the upstream window. -/
def winOpen (m : LaneMode) (watch : Bool) : Nat := if !watch && m == .swift then 128 else 512

/-- First symbol after the upstream window. -/
def winClose (m : LaneMode) (watch : Bool) : Nat := winOpen m watch + 78 * slotsOf m

/-- Length of a command frame in symbols (R140). -/
def frameLen (m : LaneMode) : Nat := 98 + 8 * slotsOf m

/-- Default launch point. -/
def defaultLaunch : LaneMode → Nat
  | .swift => 2200
  | .dense => 4800
  | .deep => 10400

/-- Default MAXFLIGHT. -/
def defaultFlight : LaneMode → Nat
  | .swift => 469
  | _ => 625

/-- Earliest permitted launch point. -/
def earliestLaunch : LaneMode → Nat
  | .swift => 1812
  | .dense => 1942
  | .deep => 1434

/-- Length of a symbol in tenths of ns: 1.6 ns at full rate, 8 ns at Watch rate (R101). -/
def symTenths (watch : Bool) : Nat := if watch then 80 else 16

/-- A number of symbols in ns, rounded down. -/
def symNs (watch : Bool) (n : Nat) : Nat := n * symTenths watch / 10

/-- The launch point in symbols of tick n+1: 10,400 in Watch (R41). -/
def launchSym (s : State) : Nat := if s.watch then 10400 else rd s TCK_LAUNCH_LAUNCH

/-! Frames (R140 to R145). -/

/-- The check byte of an ordered set (R135, R136). -/
def setCheck (a b : Byte) : Byte := BitVec.ofNat 8 (crc crc8 [a, b])

/-- The tick-mark ordered set of a mark (R135). -/
def tickSet (t : Tick) : List Sym :=
  let lo := BitVec.ofNat 8 t.toNat
  let hi := BitVec.ofNat 8 (t.toNat / 256)
  [.k K28_1, .d lo, .d hi, .d (setCheck lo hi)]

/-- The rate-change ordered set (R136): COUNT, 0 for cancel, and the rate after the switch. -/
def rateSet (count : Nat) (toWatch : Bool) : List Sym :=
  let c := BitVec.ofNat 8 count
  let t := BitVec.ofNat 8 (bitNat toWatch)
  [.k K28_0, .d c, .d t, .d (setCheck c t)]

/-- The block ordered set (R138). -/
def blockSyms : List Sym := [.k K30_7, .k K30_7, .k K30_7]

/-- Bytes 0 to 6 of a command slot (R145). -/
def slotHead (c : SlotCmd) : List Byte :=
  leBytes 1 (c.stateA.toNat + 16 * c.stateB.toNat) ++ leBytes 2 (c.instA.toNat + 16384 * c.dtClass.toNat) ++
  leBytes 2 (c.instB.toNat + 16384 * bitNat c.force + 32768 * bitNat c.refresh) ++ leBytes 1 c.pset.toNat ++ [c.seq]

/-- The 8 bytes of a command slot with its CRC-8 (R145). -/
def slotBytes (etick : Tick) (lane slot : Nat) (c : SlotCmd) : List Byte :=
  let h := slotHead c
  h ++ crcBytes crc8 (h ++ leBytes 4 etick.toNat ++ leBytes 1 lane ++ leBytes 1 slot)

/-- What a frame's header carries beside its mailbox (R141). -/
structure Header where
  ftype   : Nat
  lane    : Nat
  mode    : LaneMode
  watch   : Bool
  etick   : Tick
  cstate  : Nat
  planVer : BitVec 16
  rcd     : Nat := 0
  blockAll : Bool := false
  deriving DecidableEq, Repr

/-- Bytes 12 to 19 of the header: the mailbox fields and RCD (R141, R605). -/
def mbxHead (rcd : Nat) (m : MbxFrame) : List Byte :=
  [m.slot, m.op] ++ leBytes 1 rcd ++ [m.tag] ++ leBytes 4 m.arg.toNat

/-- The 24 bytes of a header (R141, R142): GCMD is BLOCK_ALL whenever CSTATE is BLOCKED or TRIPPED, and in superseded frames
(R347). -/
def headerBytes (h : Header) (m : MbxFrame) : List Byte :=
  let b := leBytes 1 h.ftype ++ leBytes 1 h.lane ++ leBytes 1 (slotsOf h.mode) ++
    leBytes 1 (h.mode.code + 4 * bitNat h.watch) ++ leBytes 4 h.etick.toNat ++ leBytes 1 h.cstate ++
    leBytes 1 (bitNat (h.blockAll || h.cstate == 4 || h.cstate == 5)) ++ leBytes 2 h.planVer.toNat ++ mbxHead h.rcd m ++ [0, 0]
  b ++ crcBytes crc16 b

/-- A command frame between its K27.7 and its K29.7 (R140): header, slots, mailbox and CRCs. -/
def frameBytes (h : Header) (slot : Nat → SlotCmd) (m : MbxFrame) : List Byte :=
  let hb := headerBytes h m
  let sb := (List.range (slotsOf h.mode)).flatMap fun k => slotBytes h.etick h.lane k (slot k)
  let d := padTo 64 m.data
  let mb := d ++ crcBytes crc32c (mbxHead h.rcd m ++ d)
  let all := hb ++ sb ++ mb
  all ++ crcBytes crc32 all

end Sys2Proof.Machine
end

