-- ==== Sys2Proof/Machine/Dove.lean ====
section
/-! DEFINITION. Sending on the Dovetail link (R380 to R382): who mirrors, what shadows, and the sender's sequence with the records
it keeps. -/

namespace Sys2Proof.Machine

/-- Changes the duplex state. -/
def modDpx (f : DuplexSt → DuplexSt) (s : State) : State := { s with dpx := f s.dpx }

/-- The device executes in shadow: STANDBY, or RESYNC once the cut record has started it (R385, R395). -/
def shadows (s : State) : Bool := s.role == .standby || (s.role == .resync && s.dpx.shadow)

/-- A STANDBY or RESYNC device (R32, R376). -/
def follows (s : State) : Bool := s.role == .standby || s.role == .resync

/-- A device that takes the inputs of a mark from the active device (R235, R282, R385): a STANDBY device, and one in RESYNC while the
link is up. Its ticks close once their TICKIN has come. -/
def waitsTickin (s : State) : Bool := s.role == .standby || (s.role == .resync && rdB s DPX_STATUS_DVL_UP)

/-- Code of a duplex role (R377, R397). -/
def Role.code : Role → Nat
  | .solo => 0
  | .active => 1
  | .standby => 2
  | .resync => 3
  | .failstop => 4

/-- HEALTHY (R377): in RUN, main PLL locked, nothing of severity HANDOVER or above latched. -/
def healthy (s : State) : Bool := s.dev == .run && rdB s CLK_STATUS_LOCK && !rdB s FCL_STATUS_YIELD

/-- Brings TAKEOVER_OK up to date (R387). -/
def refreshTakeover (s : State) : State :=
  wrB DPX_STATUS_TAKEOVER_OK (s.role == .standby && rdB s DPX_STATUS_CURRENT && healthy s && rdB s DPX_STATUS_DVL_UP &&
    (rdB s DPX_STATUS_DIGEST_OK || (rdB s DPX_CFG_SKEW_OK && rdB s DPX_STATUS_SKEW))) s

/-- The traffic of lane `l` is on its line: the lane runs, without a loop or a test pattern (R122). -/
def lineOn (s : State) (l : Nat) : Bool := rdB s (LNK_STATUS_UP l) && rd s (LNK_CTRL_LOOP l) == 0 && rd s (LNK_CTRL_PATTERN l) == 0

/-- A segment between its K27.7 and its K29.7 (R380). -/
def segmentBytes (rtype : Nat) (last : Bool) (sseq : BitVec 16) (rtick : Tick) (payload : List Byte) : List Byte :=
  let b := [BitVec.ofNat 8 rtype, BitVec.ofNat 8 (bitNat last)] ++ leBytes 2 payload.length ++ leBytes 2 sseq.toNat ++
    leBytes 2 (rtick.toNat % 65536) ++ payload
  b ++ crcBytes crc32c b

/-- Number of segments a payload takes, of at most 1,024 bytes each (R380). -/
def segmentCount (payload : List Byte) : Nat := max 1 ((payload.length + 1023) / 1024)

/-- The segments of a record from SSEQ `n` on. -/
def segmentsOf (n : BitVec 16) (t : Tick) (r : DoveRec) : List (BitVec 16 × Tick × DoveRec × List Byte) :=
  let p := Config.recordBytes r
  (List.range (segmentCount p)).map fun i =>
    let q := n + BitVec.ofNat 16 i
    (q, t, r, segmentBytes r.rtype (decide (i + 1 = segmentCount p)) q t ((p.drop (1024 * i)).take 1024))

/-- Puts segments on the Dovetail lanes, while one of them carries traffic. -/
def sendSegments (l : List (BitVec 16 × Tick × DoveRec × List Byte)) (s : State) : State :=
  { s with sent := s.sent ++ if (List.range 4).any fun k => lineOn s (64 + k) then l.map fun x => .dove x.1 x.2.2.1 x.2.2.2 else [] }

/-- Sends a record while the link is up (R382); its segments are kept for 2 ticks (R381). -/
def sendDove (r : DoveRec) (s : State) : State :=
  if !rdB s DPX_STATUS_DVL_UP then s
  else
    let l := segmentsOf s.dpx.txNext s.tick r
    sendSegments l (modDpx (fun d => { d with
      txNext := d.txNext + BitVec.ofNat 16 l.length
      txKept := l.reverse ++ d.txKept.filter fun x => decide (tickDiff s.tick x.2.1 ≤ 2) }) s)

/-- What only the active device sends (R382). -/
def mirror (r : DoveRec) (s : State) : State := if s.role == .active then sendDove r s else s

/-- Mirrors the value that FRAC takes at the next mark (R95). -/
def mirrorFrac (f : BitVec 24) (s : State) : State := mirror (.event (s.tick + 1) (.frac f)) s

/-- Mirrors an event that applies to the present mark (R382). -/
def mirrorEvent (e : DoveEvent) (s : State) : State := mirror (.event s.tick e) s

end Sys2Proof.Machine
end

