-- ==== Sys2Proof/Machine/Collector.lean ====
section
/-! DEFINITION. The fault collector (chapter 14): latching a source, records, shadows and merging, reactions; posting
device events to their flows (R505) and setting the event flags of tasks (R454 to R456); the failstop (R412). -/

namespace Sys2Proof.Machine

/-! Event flags and device events. -/

/-- A Foreman context. -/
def fctx (s : State) (c : Nat) : FmnCtx := kget {} s.fmn.ctxs c

/-- Changes a Foreman context. -/
def modCtx (c : Nat) (f : FmnCtx → FmnCtx) (s : State) : State :=
  { s with fmn := { s.fmn with ctxs := kmod {} s.fmn.ctxs c f } }

/-- Whether flags satisfy a wait (R452). -/
def waitMet (flags mask : BitVec 64) (all : Bool) : Bool :=
  if all then flags &&& mask == mask else flags &&& mask != 0

/-- Sets flag `k` of event task `n`; a set of a flag that is set only counts (R455). PEND shows a cycle that the next wait would
release at once. -/
def setFlag (n k : Nat) (s : State) : State :=
  let c := fctx s (32 + n)
  if c.flags.getLsbD k then count BEN_EVOVR_CNT_COUNT s
  else
    let f := c.flags ||| BitVec.ofNat 64 (2 ^ k)
    let s := modCtx (32 + n) (fun c => { c with flags := f }) s
    if (c.st == .ready || c.st == .running) && waitMet f c.wmask c.all then wrB (BEN_TSTAT_PEND (32 + n)) true s else s

/-- A flow has released an item or taken a step (R467). -/
def flowReleased (f : Nat) (s : State) : State := { s with fmn := { s.fmn with flows := kdel s.fmn.flows f } }

/-- Source `src` of the event route table occurs: every entry naming it sets its flag (R456). -/
def occur (src : Nat) (s : State) : State :=
  forUpto 128 s fun s i =>
    let e := tab s 0x0C i
    if fld e 0 0 16 = src ∧ src ≠ 0xFFFF then setFlag (fld e 2 0 6) (fld e 3 0 6) s else s

/-- Posts an event of group `g` to its flow (R505); the flow has room (see EVENT_FLOW_FULL). -/
def postEvent (g : Nat) (e : DevEvent) (s : State) : State :=
  { s with fmn := { s.fmn with evq := kmod {} s.fmn.evq g fun q => { q with queue := q.queue ++ [e] } } }

/-- An event of now, with its data (R504, R505). -/
def eventNow (s : State) (ecode : Nat) (data : List Byte) : DevEvent :=
  { ecode := BitVec.ofNat 16 ecode, tick := s.tick, time := s.time, data := data }

/-- Posts an event dated now. -/
def post (g ecode : Nat) (data : List Byte) (s : State) : State := postEvent g (eventNow s ecode data) s

/-! Records. -/

/-- The bit of a source in the Fault Status Word (R399). -/
def srcBit (x : Src) : Nat := x.ctorIdx

/-- The severity of a source in the fault table (R402). -/
def sevOf (s : State) (x : Src) : Nat := fld (tab s 0x0A (srcBit x)) 0 0 3

/-- The 48 bytes of a record (R406). -/
def recBytes (r : FaultRec) : List Byte :=
  [r.src, BitVec.ofNat 8 (r.sev.toNat + 8 * bitNat r.esc + 16 * bitNat r.direct), r.reason, r.mcnt] ++
  leBytes 2 r.detail.toNat ++ [BitVec.ofNat 8 r.master.toNat, BitVec.ofNat 8 r.access.toNat] ++
  leBytes 8 r.addr.toNat ++ leBytes 8 r.time.toNat ++ leBytes 4 r.tick.toNat ++ leBytes 2 r.rseq.toNat ++ [0, 0] ++
  leBytes 8 r.merged.toNat ++ leBytes 8 0

/-- Posts a record as a FAULT_RECORD event (R405, R505). -/
def postRecord (r : FaultRec) (s : State) : State :=
  let b := recBytes r
  postEvent 0 { ecode := 0x0101, tick := r.tick, time := r.time.toNat, data := b.take 16 ++ b.drop 28 } s

/-- Whether a source's bit is latched (R398). -/
def latched (s : State) (i : Nat) : Bool :=
  if i < 32 then rdBit s FCL_FSW_LO_F i else rdBit s FCL_FSW_HI_F (i - 32)

/-- Sets or clears a latched bit. -/
def setLatched (i : Nat) (b : Bool) (s : State) : State :=
  if i < 32 then wrBit FCL_FSW_LO_F i b s else wrBit FCL_FSW_HI_F (i - 32) b s

/-- Whether the condition of a level source holds (R398). -/
def active (s : State) (i : Nat) : Bool :=
  if i < 32 then rdBit s FCL_ACTIVE_LO_F i else rdBit s FCL_ACTIVE_HI_F (i - 32)

/-- Shows whether the condition of a level source holds (R398). -/
def setActive (x : Src) (b : Bool) (s : State) : State :=
  let i := srcBit x
  if i < 32 then wrBit FCL_ACTIVE_LO_F i b s else wrBit FCL_ACTIVE_HI_F (i - 32) b s

/-- The highest severity among the latched bits, each at the severity it was raised with (R400, R404). -/
def maxSev (s : State) : Nat :=
  (List.range 47).foldl (fun m i => if latched s i then max m (kget 0 s.fcl.latSev i) else m) 0

/-- Whether a bit of severity BLOCK or TRIP is latched (R401). -/
def blockLatched (s : State) : Bool := decide (4 ≤ maxSev s)

/-- Brings the fields of FCL_STATUS that follow the latched bits and the shadows up to date (R414). -/
def fclRefresh (s : State) : State :=
  let m := maxSev s
  let s := if m < 3 then { s with dpx := { s.dpx with yieldTold := false } } else s
  refreshTakeover (wr FCL_STATUS_MAXSEV m (wrB FCL_STATUS_DEGRADED (decide (2 ≤ m)) (wrB FCL_STATUS_YIELD (decide (3 ≤ m))
    (wr FCL_STATUS_NSHADOW (min 15 s.fcl.shadows.length) s))))

/-- Latches a source's bit at its severity. A bit already latched keeps the higher severity (R404). -/
def latchSrc (i sev : Nat) (s : State) : State :=
  let old := if latched s i then kget 0 s.fcl.latSev i else 0
  let s := setLatched i true s
  { s with fcl := { s.fcl with latSev := kset 0 s.fcl.latSev i (max old sev) } }

/-! Safety outputs as a reaction sees them (R353, R355). -/

/-- The protection table as committed (R368). -/
def prt (s : State) : List Byte := tab s 0x09 0

/-- A safety output. -/
def sout (s : State) (k : Nat) : SafeOut := kget {} s.prot.outs k

/-- Code of a feedback state (R370). -/
def FbState.code : FbState → Nat
  | .off => 0
  | .pickup => 1
  | .on => 2
  | .dropout => 3
  | .fault => 4

/-- Places a safety output and shows it in PRT_SOSTATk. -/
def setSout (k : Nat) (o : SafeOut) (s : State) : State :=
  let s := { s with prot := { s.prot with outs := kset {} s.prot.outs k o } }
  wr (PRT_SOSTAT_FBSTATE k) o.fb.code (wrB (PRT_SOSTAT_CHA k) (o.energised && o.pulse != some false)
    (wrB (PRT_SOSTAT_CHB k) (o.energised && o.pulse != some true) (wrB (PRT_SOSTAT_TPRUN k) o.pulse.isSome
    (wrB (PRT_SOSTAT_FBA k) o.fbA (wrB (PRT_SOSTAT_FBB k) o.fbB s)))))

/-- FB_EN of output `k` (R368). -/
def fbEn (s : State) (k : Nat) : Bool := fldB (prt s) (192 + 16 * k) 2

/-- Feedback of an output: closed when both contacts read high (low with FB_INV), open when both read the other level
(R355). -/
def fbClosed (inv : Bool) (o : SafeOut) : Bool := (o.fbA != inv) && (o.fbB != inv)
/-- Feedback open (R355). -/
def fbOpen (inv : Bool) (o : SafeOut) : Bool := (o.fbA == inv) && (o.fbB == inv)

/-- PICKUP and DROPOUT end as soon as the contacts stand as they must (R355). -/
def fbSettle (inv : Bool) (t : Nat) (o : SafeOut) : SafeOut :=
  match o.fb with
  | .pickup => if fbOpen inv o then { o with fb := .on, since := t } else o
  | .dropout => if fbClosed inv o then { o with fb := .off, since := t } else o
  | _ => o

/-- De-energises output `k` (R353): from PICKUP or ON its feedback state becomes DROPOUT, and OFF where the contacts are closed; without
feedback it is OFF. A test pulse is not completed (R354). -/
def deEnergise (k : Nat) (s : State) : State :=
  let o := sout s k
  if !o.energised then s
  else
    let fb := if !fbEn s k then .off else match o.fb with
      | .pickup => .dropout
      | .on => .dropout
      | x => x
    setSout k (fbSettle (fldB (prt s) (192 + 16 * k) 3) s.time { o with
      energised := false, fb := fb, since := s.time, badSince := none, pulse := none, tpAt := none }) s

/-- De-energises every safety output. -/
def deEnergiseAll (s : State) : State := forUpto 4 s fun s k => deEnergise k s

/-! Reactions (R400, R401). -/

/-- The pending rate change, once its switch mark is fixed: towards Watch, and the switch mark's Timecount. -/
def rateSwitch (s : State) : Option (Bool × Nat) :=
  match s.numChange with
  | none => none
  | some c =>
    match c.kind, c.switchAt with
    | .rateToFull, some t => some (false, t)
    | .rateToWatch, some t => some (true, t)
    | _, _ => none

/-- The windows whose frames have left in the new numbering go without one: no transition is commanded in them (R53, R137). -/
def superseded (w : Tick) (c : Cell) : Cell :=
  { c with dyn := { c.dyn with wins := c.dyn.wins.map fun x => if x.window = w then { x with ntrans := 0 } else x } }

/-- A rate change that is under way is cancelled (R137): a BLOCK or TRIP reaction, a BLOCK that takes effect, the stop of the
lanes. From the next mark on COUNT 0 is sent, if a rate-change set has been sent at all. -/
def cancelRate (s : State) : State :=
  match s.numChange with
  | none => s
  | some c =>
    let rate := c.kind == .rateToFull || c.kind == .rateToWatch
    match c.switchAt with
    | none => s
    | some t =>
      if !rate then s
      else
        -- frames launched for the switch mark's window are superseded: that window counts as one without a frame
        let s := if s.sentWin == some (s.tick + 1) && decide (t ≤ s.markAt + tickLen s) then
            count TCK_OVR_CNT_COUNT { s with cells := s.cells.map fun c => (c.1, superseded (s.tick + 1) c.2) }
          else s
        { s with
        numChange := none
        rateCancel := if c.started then some (c.kind == .rateToWatch, t) else none
        pwr := if c.kind == .rateToFull && c.started then { s.pwr with profileAt := some t } else s.pwr }

/-- The reaction of a severity (R400). BLOCK and TRIP request a block set in every state but DORMANT and supersede the
frames still to be launched (R346, R347); the converter follows at the next mark, on a device that commands the cells
(R32, R394). TRIP de-energises every safety output in every converter state. -/
def react (sev : Nat) (s : State) : State :=
  let s := if 5 ≤ sev then deEnergiseAll s else s
  if sev < 4 || s.conv == .dormant then s
  else
    let own := s.role == .solo || s.role == .active
    let s := mirrorEvent (.reaction sev) s
    cancelRate { s with fcl := { s.fcl with
      blockReq := true, reacted := true, superseded := true
      toBlock := s.fcl.toBlock || own
      toTrip := s.fcl.toTrip || (own && decide (5 ≤ sev)) } }

/-- A reaction in progress is escalated from one severity to a higher one (R409): from BLOCK to TRIP what the block has done already is not
done again. -/
def escalate (old new : Nat) (s : State) : State :=
  if old < 4 then react new s
  else
    let s := deEnergiseAll s
    if s.conv == .dormant || !(s.role == .solo || s.role == .active) then s
    else { s with fcl := { s.fcl with reacted := true, superseded := true, toTrip := true } }

/-- Changes a record wherever it stands: in the ring, as the first record while that still follows it, and in its
shadow. -/
def updRecord (q : BitVec 16) (f : FaultRec → FaultRec) (s : State) : State :=
  let g := fun (r : FaultRec) => if r.rseq = q then f r else r
  { s with fcl := { s.fcl with
      ring := s.fcl.ring.map g
      first := if s.fcl.firstLive then s.fcl.first.map g else s.fcl.first
      shadows := s.fcl.shadows.map fun h => if h.record.rseq = q then { h with record := f h.record, touched := true } else h } }

/-- The most recent running shadow that includes source `i` (R407). -/
def shadowFor (s : State) (i : Nat) : Option Shadow :=
  s.fcl.shadows.find? fun h => decide (s.time < h.ends) && h.shmask.getLsbD i

/-- Merges a raise into a record (R407, R409): a higher severity escalates the reaction in progress. -/
def mergeInto (h : Shadow) (i sev : Nat) (s : State) : State :=
  let up := decide (h.record.sev.toNat < sev)
  let s := updRecord h.record.rseq (fun r => { r with
      merged := r.merged ||| BitVec.ofNat 64 (2 ^ i)
      mcnt := if r.mcnt = 0xFF then 0xFF else r.mcnt + 1
      esc := r.esc || up
      sev := if up then BitVec.ofNat 3 sev else r.sev }) s
  if up then escalate h.record.sev.toNat sev s else s

/-- A firing of Ledger unit `u` comes about now; firings of one core cycle are one (R477). -/
def addFire (u : Nat) (f : TrigFire) (s : State) : State :=
  { s with ledger := { s.ledger with trigs := kmod {} s.ledger.trigs u fun x =>
      match x.fires.getLast? with
      | some g => if g.at_ = f.at_ then { x with fires := x.fires.dropLast ++
          [{ g with cond := g.cond || f.cond, fault := g.fault || f.fault, value := if f.cond then f.value else g.value }] }
        else { x with fires := x.fires ++ [f] }
      | none => { x with fires := [f] } } }

/-- A record of source `i` fires the armed Ledger units that name it (R477). -/
def ledgerRecord (i : Nat) (s : State) : State :=
  s.ledger.trigs.foldl (fun s x =>
    if x.2.armed && fld (tab s 0x0F x.1) 5 0 6 == i then addFire x.1 { at_ := s.time, fault := true } s else s) s

/-- Makes a new record with its shadow (R405, R407). -/
def newRecord (r : Raise) (sev : Nat) (s : State) : State :=
  let i := srcBit r.src
  let e := tab s 0x0A i
  let fr : FaultRec := {
    src := BitVec.ofNat 8 i, sev := BitVec.ofNat 3 sev, direct := r.direct, reason := r.reason, detail := r.detail
    master := r.master, access := r.access, addr := r.addr, time := BitVec.ofNat 64 s.time, tick := s.tick
    rseq := s.fcl.rseq }
  let sh := fld e 2 0 16
  let full := decide (16 ≤ s.fcl.ring.length)
  let takeFirst := !rdB s FCL_STATUS_FIRSTV
  let shadows := if sh = 0 then s.fcl.shadows else
    { record := fr, ends := s.time + sh * 1000, shmask := BitVec.ofNat 64 (fld e 8 0 64) ||| BitVec.ofNat 64 (2 ^ i) }
      :: s.fcl.shadows
  let s := { s with fcl := { s.fcl with
      ring := (fr :: s.fcl.ring).take 16
      ringPos := (s.fcl.ringPos + 1) % 16
      rseq := s.fcl.rseq + 1
      shadows := shadows
      first := if takeFirst then some fr else s.fcl.first
      firstLive := if takeFirst then decide (sh ≠ 0) else s.fcl.firstLive } }
  let s := if full then count FCL_LOST_CNT_COUNT s else s
  ledgerRecord i (postRecord fr (wrB FCL_STATUS_FIRSTV true s))

/-- A source is raised (R398, R405, R407): its bit latches; at OFF nothing more; otherwise it merges into the most
recent running shadow that includes it, or makes its own record and reaction. A path that acts whatever the severity
(R401) makes its reaction in any case. -/
def raiseSrc (r : Raise) (s : State) : State :=
  let i := srcBit r.src
  let sev := sevOf s r.src
  let acts := max sev r.forced
  let s := latchSrc i sev s
  let s :=
    if sev = 0 then react r.forced s
    else match shadowFor s i with
      | some h => occur (0x200 + i) (react r.forced (mergeInto h i acts s))
      | none => occur (0x200 + i) (react acts (newRecord r acts s))
  fclRefresh s

/-- The raises of source `i` among those of one core cycle, as one: a source raised for several units at once counts once, with
the first unit's reason and detail (R408, worked example of R409). -/
def oneRaise (rs : List Raise) (i : Nat) : List Raise :=
  match rs.filter fun r => decide (srcBit r.src = i) with
  | [] => []
  | r :: t => [{ r with
      direct := t.foldl (fun d x => d || x.direct) r.direct
      forced := t.foldl (fun f x => max f x.forced) r.forced }]

/-- Several sources raised in one core cycle: highest severity first, then lowest bit (R408). -/
def raiseAll (rs : List Raise) (s : State) : State :=
  let ones := (List.range 47).flatMap (oneRaise rs)
  let pick := fun (sev : Nat) => ones.filter fun r => decide (max (sevOf s r.src) r.forced = sev)
  ([5, 4, 3, 2, 1, 0, 6, 7].flatMap pick).foldl (fun s r => raiseSrc r s) s

/-- Raises a source with a reason and a detail. -/
def fault (x : Src) (reason detail : Nat) (s : State) : State :=
  raiseSrc { src := x, reason := BitVec.ofNat 8 reason, detail := BitVec.ofNat 16 detail } s

/-- A block set of three symbols is sent from Timecount `t` on. -/
def setSent (t : Nat) (s : State) : State :=
  { s with fcl := { s.fcl with setFrom := t, setEnd := t + (if s.watch then 24 else 5) } }

/-- A block set is injected on every star lane, after the tick-mark set if that is being sent; the frames being sent are abandoned (R106,
R138). -/
def injectSet (s : State) : State :=
  let s := emit .blockSet (setSent (max s.time (s.markAt + (if s.watch then 32 else 7))) s)
  if s.time < s.frameEnd then emit .abandoned { s with frameEnd := s.time } else s

/-! Failstop (R412). -/

/-- The registers of the lanes show lanes that no longer run, and the star lanes' transmitters disabled (R108, R133). -/
def showDark (s : State) : State :=
  forUpto 69 s fun s l => wrB (LNK_STATUS_UP l) false (if l < 64 then wrB (LNK_STATUS_TXDIS l) true s else s)

/-- The device and its pins in FAILSTOP: FAIL_N low, the lasers dark, no heartbeat (R412); the lane registers show the level of the disable
pins (R108, R373). -/
def stopNow (s : State) : State :=
  wrB LNK_GSTAT_READY false (wrB LNK_GSTAT_TXDIS_G0 true (wrB LNK_GSTAT_TXDIS_G1 true { s with
    dev := .failstop, role := .failstop, lanesOn := false
    pin := { s.pin with failN := false, txdisG0 := true, txdisG1 := true, grantEcho := false } }))

/-- A failstop with its cause (R412): every safety output de-energised, the device stopped, its lanes shown dark. -/
def failstop (cause : Nat) (s : State) : State :=
  wr GLB_STATUS_DSTATE 4 (wr FCL_FSCAUSE_CAUSE cause (showDark (stopNow (deEnergiseAll s))))

/-! The commands of chapter 14. -/

/-- The running shadow that ends first. -/
def firstShadow (s : State) : Option Shadow :=
  s.fcl.shadows.foldl (fun o h => match o with
    | none => some h
    | some g => if h.ends < g.ends then some h else some g) none

/-- The running shadow that ends first ends (R405, R407): its record is posted again if something merged into it, and
FCL_FIRST stops following it. -/
def shadowEnd (s : State) : State :=
  match firstShadow s with
  | none => s
  | some h =>
    let s := { s with
      time := max s.time h.ends
      fcl := { s.fcl with
        shadows := s.fcl.shadows.filter fun g => decide (g.record.rseq ≠ h.record.rseq)
        firstLive := s.fcl.firstLive && !(s.fcl.first.map (·.rseq) == some h.record.rseq) } }
    fclRefresh (if h.touched then postRecord h.record s else s)

/-- Clears one latched bit, unless its condition holds, which sets WRERR (R398). -/
def clearLatched (i : Nat) (s : State) : State :=
  if 47 ≤ i then s
  else if active s i then wrB FCL_STATUS_WRERR true s
  else
    let s := setLatched i false s
    { s with fcl := { s.fcl with latSev := kset 0 s.fcl.latSev i 0 } }

/-- Clears the bits written as 1 in FCL_FSW_LO or FCL_FSW_HI (R398). -/
def fswClear (high : Bool) (v : Word) (s : State) : State :=
  fclRefresh (forUpto 32 s fun s k => if v.getLsbD k then clearLatched (if high then 32 + k else k) s else s)

/-- Frees FCL_FIRST for the next record (R405, R414). Its words keep the old one until then. -/
def firstClr (s : State) : State := wrB FCL_STATUS_FIRSTV false { s with fcl := { s.fcl with firstLive := false } }

/-- SHADOW_END (R405). -/
def execShadowEnd (s : State) : Host.Outcome State Fault Refusal := cmd shadowEnd s

/-- FCL_FSW_CLEAR (R398). -/
def execFclFswClear (high : Bool) (v : Word) (s : State) : Host.Outcome State Fault Refusal := cmd (regWrite (if high then 0x58004 else 0x58000) v (fswClear high v)) s

/-- FIRST_CLR (R405). -/
def execFirstClr (s : State) : Host.Outcome State Fault Refusal := cmd (regWrite 0x58014 1 firstClr) s

/-- PRIOR_CLR (R413): the flag of retained state clears. -/
def execPriorClr (s : State) : Host.Outcome State Fault Refusal := cmd (regWrite 0x58014 2 (wrB FCL_STATUS_PRIOR false)) s

/-- What the supervisor detects stops the device in every state (R27); FAILSTOP itself is left only by an external reset. -/
def supervised (cause : Nat) (s : State) : State := if s.dev == .failstop then s else failstop cause s

/-- SUPERVISOR_WATCHDOG (R412): a failstop with cause 2. -/
def execSupervisorWatchdog (s : State) : Host.Outcome State Fault Refusal := cmdAlways (supervised 2) s

/-- SUPERVISOR_LOCKSTEP (R412): a failstop with cause 1. -/
def execSupervisorLockstep (s : State) : Host.Outcome State Fault Refusal := cmdAlways (supervised 1) s

/-- COLLECTOR_DISAGREEMENT (R412): a failstop with cause 3. -/
def execCollectorDisagreement (s : State) : Host.Outcome State Fault Refusal := cmdAlways (supervised 3) s

end Sys2Proof.Machine
end

