-- ==== Sys2Proof/Machine/Float.lean ====
section
/-! DEFINITION. Binary32 and binary64 arithmetic as the loop engine and the sequencer state it (R258, R291): one
rounding to nearest, ties to even, of the exact result; subnormal operands and results become zero of the same sign;
sine and cosine rounded from the exact value. Numbers are handled as exact rationals. -/

namespace Sys2Proof.Machine

/-- A binary format: exponent bits and mantissa bits. -/
structure Fmt where
  eb : Nat
  mb : Nat
  deriving DecidableEq, Repr

/-- binary32. -/
def fmt32 : Fmt := ⟨8, 23⟩
/-- binary64. -/
def fmt64 : Fmt := ⟨11, 52⟩

/-- What a bit pattern stands for. A subnormal operand stands for zero of its sign (R258). -/
inductive FVal where
  | nan
  | inf (neg : Bool)
  | fin (neg : Bool) (mag : Rat)
  deriving DecidableEq, Repr

/-- Exponent bias. -/
def Fmt.bias (f : Fmt) : Nat := 2 ^ (f.eb - 1) - 1

/-- 2 to an integer power. -/
def pow2 (e : Int) : Rat := if 0 ≤ e then ((2 ^ e.toNat : Nat) : Rat) else 1 / ((2 ^ (-e).toNat : Nat) : Rat)

/-- Reads a bit pattern. -/
def fdec (f : Fmt) (bits : Nat) : FVal :=
  let neg := bits / 2 ^ (f.eb + f.mb) % 2 == 1
  let e := bits / 2 ^ f.mb % 2 ^ f.eb
  let m := bits % 2 ^ f.mb
  if e = 2 ^ f.eb - 1 then (if m = 0 then .inf neg else .nan)
  else if e = 0 then .fin neg 0
  else .fin neg (((2 ^ f.mb + m : Nat) : Rat) * pow2 ((e : Int) - f.bias - f.mb))

/-- The largest e with 2^e not above q, for q > 0. -/
def ratLog2 (q : Rat) : Int :=
  let l : Int := (q.num.natAbs.log2 : Int) - (q.den.log2 : Int)
  if pow2 l ≤ q then l else l - 1

/-- Rounds a non-negative rational to an integer, ties to even. -/
def roundEven (q : Rat) : Nat :=
  let n := q.num.natAbs / q.den
  let r := 2 * (q.num.natAbs % q.den)
  if r < q.den then n else if r = q.den then n + n % 2 else n + 1

/-- Bit pattern of an infinity. -/
def finf (f : Fmt) (neg : Bool) : Nat := bitNat neg * 2 ^ (f.eb + f.mb) + (2 ^ f.eb - 1) * 2 ^ f.mb

/-- Bit pattern of a NaN. -/
def fnan (f : Fmt) : Nat := (2 ^ f.eb - 1) * 2 ^ f.mb + 2 ^ (f.mb - 1)

/-- Rounds magnitude `q` with sign `neg` to the format (R258): to nearest, ties to even, as if the exponent range
were unbounded, then to zero below the smallest normal number. -/
def fround (f : Fmt) (neg : Bool) (q : Rat) : Nat :=
  let s := bitNat neg * 2 ^ (f.eb + f.mb)
  if q = 0 then s
  else
    let e := ratLog2 q
    let m := roundEven (q * pow2 ((f.mb : Int) - e))
    let (m, e) := if m = 2 ^ (f.mb + 1) then (2 ^ f.mb, e + 1) else (m, e)
    let be : Int := e + f.bias
    if be < 1 then s
    else if 2 ^ f.eb - 1 ≤ be then finf f neg
    else s + be.toNat * 2 ^ f.mb + (m - 2 ^ f.mb)

/-- Rounds a signed rational; zero comes out positive. -/
def fofRat (f : Fmt) (q : Rat) : Nat := fround f (decide (q < 0)) (if q < 0 then -q else q)

/-- The signed value of a finite number. -/
def fsigned (neg : Bool) (mag : Rat) : Rat := if neg then -mag else mag

/-- Addition. -/
def fadd (f : Fmt) (a b : Nat) : Nat :=
  match fdec f a, fdec f b with
  | .nan, _ => fnan f
  | _, .nan => fnan f
  | .inf x, .inf y => if x = y then finf f x else fnan f
  | .inf x, .fin _ _ => finf f x
  | .fin _ _, .inf y => finf f y
  | .fin x p, .fin y q =>
    let r := fsigned x p + fsigned y q
    if r = 0 then fround f (x && y) 0 else fofRat f r

/-- Negation. -/
def fneg (f : Fmt) (a : Nat) : Nat := a ^^^ 2 ^ (f.eb + f.mb)

/-- Subtraction. -/
def fsub (f : Fmt) (a b : Nat) : Nat := fadd f a (fneg f b)

/-- Multiplication. -/
def fmul (f : Fmt) (a b : Nat) : Nat :=
  match fdec f a, fdec f b with
  | .nan, _ => fnan f
  | _, .nan => fnan f
  | .inf x, .inf y => finf f (x != y)
  | .inf x, .fin y q => if q = 0 then fnan f else finf f (x != y)
  | .fin x p, .inf y => if p = 0 then fnan f else finf f (x != y)
  | .fin x p, .fin y q => fround f (x != y) (p * q)

/-- Division: the correctly rounded quotient. -/
def fdiv (f : Fmt) (a b : Nat) : Nat :=
  match fdec f a, fdec f b with
  | .nan, _ => fnan f
  | _, .nan => fnan f
  | .inf _, .inf _ => fnan f
  | .inf x, .fin y _ => finf f (x != y)
  | .fin x _, .inf y => fround f (x != y) 0
  | .fin x p, .fin y q => if q = 0 then (if p = 0 then fnan f else finf f (x != y)) else fround f (x != y) (p / q)

/-- Magnitude. -/
def fabs (f : Fmt) (a : Nat) : Nat := a % 2 ^ (f.eb + f.mb)

/-- Whether a pattern is a finite number. -/
def ffinite (f : Fmt) (a : Nat) : Bool :=
  match fdec f a with
  | .fin _ _ => true
  | _ => false

/-- The value of a pattern, 0 where it is no number. -/
def ftoRat (f : Fmt) (a : Nat) : Rat :=
  match fdec f a with
  | .fin n q => fsigned n q
  | _ => 0

/-- Less-than; false where either is a NaN. -/
def flt (f : Fmt) (a b : Nat) : Bool :=
  match fdec f a, fdec f b with
  | .nan, _ => false
  | _, .nan => false
  | .inf x, .inf y => x && !y
  | .inf x, .fin _ _ => x
  | .fin _ _, .inf y => !y
  | .fin x p, .fin y q => decide (fsigned x p < fsigned y q)

/-- Less-or-equal; false where either is a NaN. -/
def fle (f : Fmt) (a b : Nat) : Bool :=
  match fdec f a, fdec f b with
  | .nan, _ => false
  | _, .nan => false
  | _, _ => !flt f b a

/-- π × 2^640, rounded down (a published constant). -/
def piFix : Nat := 14333329926761567455775730701799299831126131522901418329710873694248203755857903894978459978948837038337184470360789102305252273090192709030764248428292776480232102476327552185579501988876367276

/-- Fixed point of sine and cosine: 2^320. -/
def trigOne : Int := (2 ^ 320 : Nat)

/-- Sum of the Taylor series of sine (`odd`) or cosine at `x` / 2^320. `t` is the current term and `k` its order. -/
def trigSum : Nat → Int → Int → Nat → Int → Int
  | 0, _, _, _, acc => acc
  | fuel + 1, x, t, k, acc =>
    let t' := -(t * x / trigOne * x / trigOne / ((k + 1 : Int) * (k + 2)))
    trigSum fuel x t' (k + 2) (acc + t)

/-- A rational brought into one turn, in fixed point: q mod 2π, within [−π, π]. -/
def trigReduce (q : Rat) : Int :=
  let twoPi : Rat := ((2 * piFix : Nat) : Rat) / ((2 ^ 640 : Nat) : Rat)
  let n := (q / twoPi + 1 / 2).floor
  ((q - (n : Rat) * twoPi) * ((2 ^ 320 : Nat) : Rat)).floor

/-- Sine of a binary32 number (R258). -/
def fsin (a : Nat) : Nat :=
  match fdec fmt32 a with
  | .fin n q =>
    if q = 0 then fround fmt32 n 0
    else
      let x := trigReduce (fsigned n q)
      fofRat fmt32 ((trigSum 60 x x 1 0 : Rat) / ((2 ^ 320 : Nat) : Rat))
  | _ => fnan fmt32

/-- Cosine of a binary32 number (R258). -/
def fcos (a : Nat) : Nat :=
  match fdec fmt32 a with
  | .fin n q =>
    let x := trigReduce (fsigned n q)
    fofRat fmt32 ((trigSum 60 x trigOne 0 0 : Rat) / ((2 ^ 320 : Nat) : Rat))
  | _ => fnan fmt32

/-! The same operations on 32-bit and 64-bit words. -/

def add32 (a b : F32) : F32 := BitVec.ofNat 32 (fadd fmt32 a.toNat b.toNat)
def sub32 (a b : F32) : F32 := BitVec.ofNat 32 (fsub fmt32 a.toNat b.toNat)
def mul32 (a b : F32) : F32 := BitVec.ofNat 32 (fmul fmt32 a.toNat b.toNat)
def div32 (a b : F32) : F32 := BitVec.ofNat 32 (fdiv fmt32 a.toNat b.toNat)
def neg32 (a : F32) : F32 := BitVec.ofNat 32 (fneg fmt32 a.toNat)
def abs32 (a : F32) : F32 := BitVec.ofNat 32 (fabs fmt32 a.toNat)
def sin32 (a : F32) : F32 := BitVec.ofNat 32 (fsin a.toNat)
def cos32 (a : F32) : F32 := BitVec.ofNat 32 (fcos a.toNat)
def lt32 (a b : F32) : Bool := flt fmt32 a.toNat b.toNat
def le32 (a b : F32) : Bool := fle fmt32 a.toNat b.toNat
def fin32 (a : F32) : Bool := ffinite fmt32 a.toNat
def rat32 (a : F32) : Rat := ftoRat fmt32 a.toNat
/-- The binary32 number nearest to a rational (R258). -/
def of32 (q : Rat) : F32 := BitVec.ofNat 32 (fofRat fmt32 q)

def add64 (a b : F64) : F64 := BitVec.ofNat 64 (fadd fmt64 a.toNat b.toNat)
def sub64 (a b : F64) : F64 := BitVec.ofNat 64 (fsub fmt64 a.toNat b.toNat)
def mul64 (a b : F64) : F64 := BitVec.ofNat 64 (fmul fmt64 a.toNat b.toNat)
def div64 (a b : F64) : F64 := BitVec.ofNat 64 (fdiv fmt64 a.toNat b.toNat)
def neg64 (a : F64) : F64 := BitVec.ofNat 64 (fneg fmt64 a.toNat)
def abs64 (a : F64) : F64 := BitVec.ofNat 64 (fabs fmt64 a.toNat)
def lt64 (a b : F64) : Bool := flt fmt64 a.toNat b.toNat
def le64 (a b : F64) : Bool := fle fmt64 a.toNat b.toNat
def fin64 (a : F64) : Bool := ffinite fmt64 a.toNat
def rat64 (a : F64) : Rat := ftoRat fmt64 a.toNat
/-- The binary64 number nearest to a rational (R291). -/
def of64 (q : Rat) : F64 := BitVec.ofNat 64 (fofRat fmt64 q)

/-- A binary32 number in binary64, exact but for subnormals. -/
def widen (a : F32) : F64 := BitVec.ofNat 64 <|
  match fdec fmt32 a.toNat with
  | .nan => fnan fmt64
  | .inf n => finf fmt64 n
  | .fin n q => fround fmt64 n q

/-- round(x) of R291: the nearest integer, halves away from zero; 0 where x is no number. -/
def roundAway (q : Rat) : Int := if q < 0 then -((-q + 1 / 2).floor) else (q + 1 / 2).floor

end Sys2Proof.Machine
end

