-- ==== Sys2Proof/Machine/Clock.lean ====
section
/-! DEFINITION. Clocks and time (chapter 03): the PLL and its divider commit, references, SYNC_IN, the time servo, steps of
Timecount, and the time-trigger units' arithmetic; the operations on the converter state that other chapters share; the
transmitter interlock (R108, R373). -/

namespace Sys2Proof.Machine

/-! The converter state (R28, R142). -/

/-- Code of a converter state (R142), 0 for DORMANT. -/
def ConvState.code : ConvState → Nat
  | .dormant => 0
  | .watch => 1
  | .ready => 2
  | .deblocked => 3
  | .blocked => 4
  | .tripped => 5

/-- The arm's running state. -/
def armDyn (s : State) (a : Nat) : ArmDyn := kget {} s.arms a

/-- Changes an arm's running state. -/
def modArm (a : Nat) (f : ArmDyn → ArmDyn) (s : State) : State := { s with arms := kmod {} s.arms a f }

/-- Levels, residuals and trim history are discarded when the converter leaves DEBLOCKED (R305). -/
def seqReset (s : State) : State :=
  forUpto 12 s fun s a => modArm a (fun x => { x with
    level := 0, rho := 0, refLast := 0, trimEnd := none, unusable := false, clamped := false, on := false, first := true }) s

/-- What ends with DEBLOCKED: levels, residuals and trim history (R305), and the runs of BAD fast outputs (R344). -/
def leaveDeblocked (s : State) : State :=
  let calm := fun (c : FastCmp) => { c with bad := 0, badDone := false }
  let s := seqReset s
  { s with prot := { s.prot with oc := s.prot.oc.map fun x => (x.1, calm x.2), dcp := calm s.prot.dcp, dcn := calm s.prot.dcn } }

/-- The converter enters a state; the change is a source of the event route table (R456). -/
def setConv (c : ConvState) (s : State) : State :=
  if s.conv = c then s else occur (0x300 + c.code) { (if s.conv = .deblocked then leaveDeblocked s else s) with conv := c }

/-- Clears every cell force and posts FORCES_CLEARED with their number (R309). -/
def clearForces (s : State) : State :=
  let n := (s.cells.filter fun c => c.2.dyn.forcedTo.isSome).length
  let s := { s with cells := s.cells.foldl (fun l c => if c.2.dyn.forcedTo.isSome then
      kmod {} l c.1 fun x => { x with dyn := { x.dyn with forcedTo := none } } else l) s.cells }
  post 2 0x0309 (leBytes 2 n) s

/-- The device commands the cells: role SOLO or ACTIVE (R32, R35). -/
def commands (s : State) : Bool := s.role == .solo || s.role == .active

/-! The transmitter interlock (R108, R372, R373). -/

/-- The readiness term (R373, R554). The lock of the main PLL counts until the lanes stop, 2 µs after its loss (R84). -/
def readiness (s : State) : Bool :=
  s.dev == .run && (rdB s CLK_STATUS_LOCK || s.clk.stopAt.isSome) && commands s &&
    (s.conv != .dormant || s.litAt.isSome) && !s.dpx.released

/-- The enable of a lane group: the lanes are lit and one of its 32 lanes runs (R108, R109). -/
def groupOn (s : State) (g : Nat) : Bool :=
  s.lanesOn && (List.range 32).any fun k => (kget ({} : LaneSt) s.lanes (32 * g + k)).lit

/-- Drives a group's disable pin and shows it (R108, R133). -/
def driveGroup (g : Nat) (high : Bool) (s : State) : State :=
  let old := if g = 0 then s.pin.txdisG0 else s.pin.txdisG1
  if old = high then s
  else
    let s := if g = 0 then { s with pin := { s.pin with txdisG0 := high } } else { s with pin := { s.pin with txdisG1 := high } }
    let s := wrB (if g = 0 then LNK_GSTAT_TXDIS_G0 else LNK_GSTAT_TXDIS_G1) high s
    forUpto 32 s fun s k => wrB (LNK_STATUS_TXDIS (32 * g + k)) high s

/-- Brings TXDIS_G0, TXDIS_G1 and GRANT_ECHO up to date (R108, R372). -/
def interlock (s : State) : State :=
  let r := readiness s
  let on := s.dpx.grant && r
  let s := wrB LNK_GSTAT_READY r (wrB LNK_GSTAT_GRANT s.dpx.grant s)
  let s := driveGroup 1 (!(on && groupOn s 1)) (driveGroup 0 (!(on && groupOn s 0)) s)
  { s with pin := { s.pin with grantEcho := !s.pin.txdisG0 || !s.pin.txdisG1 } }

/-! Lanes. -/

/-- A lane. -/
def lane (s : State) (l : Nat) : LaneSt := kget {} s.lanes l

/-- Changes a lane. -/
def modLane (l : Nat) (f : LaneSt → LaneSt) (s : State) : State := { s with lanes := kmod {} s.lanes l f }

/-- The line settings of lane `l` (R119, R121): those of the board descriptor's entry that its EQSEL names, at the rate of star lanes. -/
def lineSetting (s : State) (l : Nat) : Option EqSet :=
  s.sec.board.map fun b => eqSet (b.eq.getD (rd s (LNK_CTRL_EQSEL l)) 0) (decide (l < 64) && s.watch)

/-- A lane takes its line settings. -/
def setLine (l : Nat) (s : State) : State :=
  match lineSetting s l with
  | some e => emit (.lineSet l e) s
  | none => s

/-- The Dovetail lanes of a paired device and the referee lane run (R377, R380): from the entry into RUN, and again once the main PLL has
relocked (DESIGN CHOICE, log entry 68). -/
def startPoints (s : State) : State :=
  if s.dev != .run then s
  else
    let ls := if rdB s DPX_CFG_PAIRED then [64, 65, 66, 67, 68] else [68]
    ls.foldl (fun s l => setLine l (wrB (LNK_STATUS_UP l) (rd s (LNK_CTRL_LOOP l) == 0 || rd s (LNK_CTRL_LOOP l) == 3)
      (modLane l (fun x => { x with rd := false, tail := [], prbs := [] }) s))) s

/-- The Dovetail and referee lanes stop, and their receivers lose lock (R71, R84). -/
def stopPoints (s : State) : State :=
  forUpto 5 s fun s k => wrB (LNK_STATUS_UP (64 + k)) false (wrB (LNK_STATUS_RXLOCK (64 + k)) false s)

/-! The PLL (R69 to R73). -/

/-- Delay-locked mode is selected (R87). -/
def delayLocked (s : State) : Bool := rd s CLK_CFG_SRC_MODE == 1

/-- FRAC as a signed number. -/
def fracInt (f : BitVec 24) : Int := f.toInt

/-- FRAC clamped to ±83,886 (R69). -/
def clampFrac (v : Int) : BitVec 24 := BitVec.ofInt 24 (max (-83886) (min 83886 v))

/-- The servo owns FRAC: SRC is PTP or PPS, outside delay-locked mode (R73, R87, R91). -/
def servoOwns (s : State) : Bool := (rd s TIM_CFG_SRC == 1 || rd s TIM_CFG_SRC == 2) && !delayLocked s

/-- The shadow copies move to the active divider (R72, R73): NINT at once, FRAC at the next mark. While the servo owns FRAC its shadow
copy stays behind, without WRERR (DESIGN CHOICE, log entry 63). -/
def commitDivider (s : State) : State :=
  let nint := rd s CLK_PLL_NINT
  let s := wrB CLK_COMMIT_GO false (wrB CLK_COMMIT_PEND false s)
  if nint ≠ 50 ∨ (nint ≠ s.clk.nint.toNat ∧ s.dev ≠ .setup) then wrB CLK_STATUS_WRERR true s
  else
    let s := { s with clk := { s.clk with nint := BitVec.ofNat 8 nint } }
    if servoOwns s then s
    else
      let f := clampFrac (rdI s CLK_FRAC_FRAC)
      mirrorFrac f (wrB CLK_COMMIT_GO true { s with clk := { s.clk with fracNext := some f } })

/-- A commit held behind a reference switch goes on once the switch is complete (R73). -/
def releaseCommit (s : State) : State :=
  if rdB s CLK_COMMIT_PEND && decide (s.clk.switchEnd ≤ s.time) then commitDivider s else s

/-- CLK_COMMIT.GO (R72, R73); GO reads 1 until the commit is done. In delay-locked mode it has no effect and sets no WRERR (DESIGN CHOICE,
log entry 63). -/
def clkCommit (v : Word) (s : State) : State :=
  let s := releaseCommit s
  if !v.getLsbD 0 || delayLocked s || rdB s CLK_COMMIT_GO then s
  else if s.time < s.clk.switchEnd then wrB CLK_COMMIT_GO true (wrB CLK_COMMIT_PEND true s)
  else commitDivider s

/-- The correction of FRAC for REFCLK_B against REFCLK_A: round(B_VS_A × 50 × 2^24 / 10^9) (R82). -/
def refCorrection (b : Int) : Int := roundAway ((b * 838860800 : Int) / (1000000000 : Rat))

/-- Switches the PLL input with phase build-out and the correction of FRAC (R82, R83); the switch takes 100 ns, the bound of R82 (DESIGN
CHOICE, log entry 63). In delay-locked mode FRAC stays at 0 (R87). -/
def selectRef (toB : Bool) (s : State) : State :=
  if delayLocked s || (rdB s CLK_STATUS_REFSEL == toB) then s
  else
    let c := refCorrection (rdI s CLK_REFMON_B_VS_A)
    let d := if toB then -c else c
    let s := wrB CLK_STATUS_REFSEL toB s
    { s with
      clk := { s.clk with frac := clampFrac (fracInt s.clk.frac + d), switchEnd := s.time + 100 }
      servo := { s.servo with value := s.servo.value + 256 * d } }

/-- Loss of REFCLK_A (R81, R82). `b` is the last measured CLK_REFMON value. -/
def refALoss (b : BitVec 24) (s : State) : State :=
  if !rdB s CLK_STATUS_A_OK then s
  else
    let s := wrB CLK_STATUS_A_OK false (wr CLK_REFMON_B_VS_A b.toNat s)
    let s := if rdB s CLK_STATUS_B_OK then selectRef true s else s
    fault .refLoss 1 0 s

/-- Loss of REFCLK_B (R81). A PLL that runs on it returns to a good REFCLK_A. -/
def refBLoss (s : State) : State :=
  if !rdB s CLK_STATUS_B_OK then s
  else
    let s := wrB CLK_STATUS_B_OK false s
    let s := if rdB s CLK_STATUS_A_OK then selectRef false s else s
    fault .refLoss 2 0 s

/-- The switch back to REFCLK_A (R83). `b` is the CLK_REFMON value at the moment of return. -/
def refARevert (b : BitVec 24) (s : State) : State :=
  if !rdB s CLK_CFG_REVERT || rdB s CLK_CFG_FORCE_B || !rdB s CLK_STATUS_REFSEL then s
  else selectRef false (wrB CLK_STATUS_A_OK true (wr CLK_REFMON_B_VS_A b.toNat s))

/-- What the reference monitors find (R81, R83, R87): which clocks are good, REFCLK_B against REFCLK_A while both are, and FORCE_B selects a
REFCLK_B that has become good. -/
def monitorRefs (aOk symOk : Bool) (b : RefSeen) (s : State) : State :=
  let s := wrB CLK_STATUS_A_OK aOk (wrB CLK_STATUS_B_OK b.good (wrB CLK_STATUS_SYM_OK symOk s))
  let s := if aOk && b.good then wr CLK_REFMON_B_VS_A b.vsA.toNat s else s
  if rdB s CLK_CFG_FORCE_B && b.good then selectRef true s else s

/-- LOCK_FILT has been high for 100 µs (R75, R76), with what the internal detector and the reference monitors report. Lock is
declared where the detector agrees; the lane PLLs and the port PLL lock with the main PLL. While lock stands only the monitors' findings are
taken, and what they have found good stays so until its loss (DESIGN CHOICE, log entry 64). -/
def lockDeclared (aOk : Bool) (b : RefSeen) (p : PllSeen) (s : State) : State :=
  if rdB s CLK_STATUS_LOCK then
    monitorRefs (aOk || rdB s CLK_STATUS_A_OK) (p.symOk || rdB s CLK_STATUS_SYM_OK)
      { b with good := b.good || rdB s CLK_STATUS_B_OK } s
  else
    let s := monitorRefs aOk p.symOk b (wrB CLK_STATUS_SLIPDET p.slip s)
    if p.slip then s
    else
      let s := wrB CLK_STATUS_LOCK true (wr CLK_STATUS_LPLL_LOCK 15 (wrB CLK_STATUS_PORT_LOCK true s))
      interlock (refreshTakeover (setActive .pllUnlock false s))

/-- Loss of main-PLL lock is declared (R84 step 1): the block set, then PLL_UNLOCK; the collector's request and this one
are one. The loss of SYMCLK_IN in delay-locked mode is one (R87). -/
def pllUnlock (p : PllSeen) (s : State) : State :=
  if !rdB s CLK_STATUS_LOCK then s
  else
    let s := wrB CLK_STATUS_LOCK false (wrB CLK_STATUS_SLIPDET p.slip s)
    let s := if p.symOk then s else wrB CLK_STATUS_SYM_OK false s
    let s := { s with clk := { s.clk with stopAt := some (s.time + 2000) } }
    let s := if s.lanesOn then
        injectSet { s with fcl := { s.fcl with superseded := true } }
      else s
    let s := setActive .pllUnlock true (fault .pllUnlock 0 0 s)
    interlock { s with fcl := { s.fcl with blockReq := false } }

/-- LOCK_FILT and the internal detector disagree for 1 ms (R76): once for each time they do. -/
def lockMismatch (s : State) : State :=
  if rdB s CLK_STATUS_LOCK then s
  else fault .configIntegrity 1 0 (wrB CLK_STATUS_SLIPDET true (wrB CLK_STATUS_LDMISMATCH true s))

/-- Every running chain resets at the next mark (R248). -/
def resetChains (s : State) : State :=
  { s with chains := forUpto 40 s.chains fun l c => kmod {} l c fun x => if x.running then { x with resetReq := true } else x }

/-- The core returns to the PLL output (R86, R248). -/
def relock (s : State) : State :=
  if !rdB s CLK_STATUS_LOCK || !rdB s CLK_STATUS_BYPASS then s
  else startPoints (resetChains (wrB CLK_STATUS_BYPASS false (wrB TIM_STATUS_COARSE false
    { s with clk := { s.clk with onOsc := false } })))

/-- The bypass clock falls back to the on-die oscillator (R84, R367): every safety output de-energises and the converter
is tripped, whatever the severity of REF_LOSS. -/
def bypassOsc (s : State) : State :=
  if !rdB s CLK_STATUS_BYPASS || s.clk.onOsc then s
  else
    let s := wrB CLK_STATUS_B_OK false { s with clk := { s.clk with onOsc := true } }
    raiseSrc { src := .refLoss, reason := 3, forced := 5 } (deEnergiseAll s)

/-! Timecount and the servo (R88 to R95). -/

/-- Timecount takes a new value; the newest mark and its number follow R36. -/
def setTime (t : Nat) (s : State) : State :=
  { s with time := t, tick := tickAt s t, markAt := t - t % tickLen s }

/-- The target of trigger unit `n`. -/
def trigTarget (s : State) (n : Nat) : Nat := rd s (TIM_TRIG_TGT_LO_T n) + 2 ^ 32 * rd s (TIM_TRIG_TGT_HI_T n)

/-- A trigger unit is armed with an action (R97). -/
def trigArmed (s : State) (n : Nat) : Bool :=
  rdB s (TIM_TRIG_CTRL_ARM n) && decide (1 ≤ rd s (TIM_TRIG_CTRL_ACTION n) ∧ rd s (TIM_TRIG_CTRL_ACTION n) ≤ 3)

/-- A trigger unit's target is reached at Timecount `t` (R90, R97). -/
def trigReached (s : State) (n t : Nat) : Bool :=
  if rdB s (TIM_TRIG_CTRL_TICKREF n) then tickGe (tickAt s t) (BitVec.ofNat 32 (rd s (TIM_TRIG_TGT_LO_T n)))
  else decide (0 ≤ (BitVec.ofNat 64 t - BitVec.ofNat 64 (trigTarget s n)).toInt)

/-- A trigger unit's target lies before Timecount `t` (R90, R99). -/
def trigPast (s : State) (n t : Nat) : Bool :=
  if rdB s (TIM_TRIG_CTRL_TICKREF n) then decide (0 < tickDiff (tickAt s t) (BitVec.ofNat 32 (rd s (TIM_TRIG_TGT_LO_T n))))
  else decide (0 < (BitVec.ofNat 64 t - BitVec.ofNat 64 (trigTarget s n)).toInt)

/-- A step of Timecount (R90, R92, R99): units whose target a forward step passes fire late. -/
def stepTime (t : Nat) (s : State) : State :=
  let passed := (List.range 16).filter fun n =>
    trigArmed s n && !trigReached s n s.time && trigPast s n t && decide (0 < (BitVec.ofNat 64 t - BitVec.ofNat 64 s.time).toInt)
  let bits := BitVec.ofNat 16 (passed.foldl (fun b n => b + 2 ^ n) 0)
  wrB TIM_STATUS_STEPPED true (setTime t
    { s with clk := { s.clk with late := s.clk.late ||| bits, passed := s.clk.passed ||| bits } })

/-- TIM_SET_GO (R92). -/
def timSetGo (v : Word) (s : State) : State :=
  if !v.getLsbD 0 then s
  else if s.conv ≠ .dormant ∨ rd s TIM_CFG_SRC = 1 then wrB TIM_STATUS_WRERR true s
  else stepTime (rd s TIM_SET_LO_T + 2 ^ 32 * rd s TIM_SET_HI_T) s

/-- A write to TIM_LATCH captures Timecount, its fraction and the tick number (R506). -/
def timLatch (s : State) : State :=
  let s := wr TIM_LATCH_LSEQ (rd s TIM_LATCH_LSEQ + 1) s
  let s := wr TIM_SNAP_LO_T s.time (wr TIM_SNAP_HI_T (s.time / 2 ^ 32) s)
  wr TIM_SNAP_FRAC_FRAC 0 (wr TIM_SNAP_TICK_TICK (tickAt s s.time).toNat s)

/-- The average of the servo's last 64 values: the holdover value (R91, R94). A servo without values starts from the FRAC last applied (R95). -/
def holdover (s : State) : Int :=
  if s.servo.recent.isEmpty then fracInt s.clk.frac else s.servo.recent.sum / (s.servo.recent.length : Int)

/-- The slew limit in FRAC steps (R69, R91). -/
def slewSteps (s : State) : Int := (rd s TIM_CFG_SLEW * 10 * 838860800 / 1000000000 : Nat)

/-- The servo's new fraction (R91): its law is not stated, so the value is free within the slew limit of the holdover value;
its lower 8 bits are free too. -/
def servoValue (s : State) : Int × State :=
  let (a, s) := drawFree s
  let (b, s) := drawFree s
  let l := slewSteps s
  let v := holdover s - l + (a : Int) % (2 * l + 1)
  (256 * v + ((if v < holdover s + l then b else 0) : Int) % 256, s)

/-- The servo writes FRAC: it owns it, on a SOLO or ACTIVE device (R91, R95). -/
def servoSteers (s : State) : Bool := servoOwns s && commands s

/-- An offset is one that steps Timecount (R92): in DORMANT, beyond STEPTHR. -/
def stepsTime (off : Int) (s : State) : Bool := s.conv == .dormant && decide (rd s TIM_CFG_STEPTHR * 1000 < off.natAbs)

/-- What the servo writes at the next mark: its upper 24 bits with the carry of the dither, before the clamp; and the dither after it (R69). -/
def servoFrac (s : State) : Int × Nat :=
  let acc := s.servo.dither.toNat + (s.servo.value % 256).toNat
  (s.servo.value / 256 + (acc / 256 : Nat), acc % 256)

/-- The servo's value for the next mark goes to the partner ahead of it (R95). -/
def mirrorServo (s : State) : State := if servoSteers s then mirrorFrac (clampFrac (servoFrac s).1) s else s

/-- An offset is measured (R91, R93): TIM_OFFSET, the servo's state, and the value that the servo writes at the next mark. A servo that only
measures has no other effect (R87, R95; DESIGN CHOICE, log entry 62). -/
def measureOffset (off : Int) (s : State) : State :=
  let n := if -100 ≤ off ∧ off ≤ 100 then s.servo.inBand + 1 else 0
  let s := wrI TIM_OFFSET_OFFSET off s
  let s := { s with servo := { s.servo with acquired := true, inBand := n, offset := some off } }
  let s := setActive .ptpLoss false (wr TIM_STATUS_TSTATE (if 16 ≤ n then 2 else 1) s)
  if !servoSteers s || stepsTime off s then s
  else
    let (v, s) := servoValue s
    mirrorServo { s with servo := { s.servo with value := v } }

/-- The source is lost (R93, R94): HOLDOVER at the average of the last values, with PTP_LOSS. -/
def enterHoldover (s : State) : State :=
  let t := rd s TIM_STATUS_TSTATE
  if !(t == 1 || t == 2) then s
  else
    let s := wr TIM_STATUS_TSTATE 3 { s with servo := { s.servo with inBand := 0, offset := none, value := 256 * holdover s } }
    mirrorServo (setActive .ptpLoss true (fault .ptpLoss 0 0 s))

/-- The servo writes FRAC at a mark (R69, R70). -/
def servoWrite (s : State) : State :=
  let (v, d) := servoFrac s
  let f := clampFrac v
  let s := { s with clk := { s.clk with frac := f }, servo := { s.servo with dither := BitVec.ofNat 8 d } }
  if fracInt f = v then s else wrB CLK_STATUS_WRERR true s

/-- The servo's part of a mark (R91, R92, R95): it steps Timecount while DORMANT beyond STEPTHR, or writes FRAC. One that only measures does
neither (DESIGN CHOICE, log entry 62). -/
def servoMark (s : State) : State :=
  let off := s.servo.offset
  let s := { s with servo := { s.servo with offset := none } }
  if !servoSteers s then s
  else match off with
    | some o =>
      if stepsTime o s then stepTime ((s.time : Int) - o).toNat s
      else
        let s := servoWrite s
        { s with servo := { s.servo with recent := (fracInt s.clk.frac :: s.servo.recent).take 64 } }
    | none => if s.servo.acquired then servoWrite s else s

/-- The clock's part of a mark (R70, R72, R91): a committed FRAC takes effect, then the servo acts, and what it writes at the next mark goes to
the partner. -/
def clockMark (s : State) : State :=
  let s := releaseCommit s
  let s := match s.clk.fracNext with
    | none => s
    | some f => wrB CLK_COMMIT_GO false { s with
        clk := { s.clk with frac := f, fracNext := none }, servo := { s.servo with value := 256 * fracInt f } }
  mirrorServo (servoMark s)

/-- The place of a SYNC_IN edge within the core cycle, in 1/64 ns (R88): a free value, since the running count shows no fraction
(DESIGN CHOICE, log entry 65). -/
def edgePlace (free : Nat) : Nat := free % 64

/-- A SYNC_IN rising edge (R77 to R79, R88, R93): timestamped in MONITOR; in ALIGN, while DORMANT, it places
the divider chain and the sub-second part of Timecount 80 ns later, and resets the filter chains (R248). CLK_SYNC_ERR is rounded to whole ns
(DESIGN CHOICE, log entry 65). -/
def syncEdge (s : State) : State :=
  match rd s CLK_SYNC_MODE with
  | 1 =>
    let (free, s) := drawFree s
    let at_ := 64 * s.time + edgePlace free
    let r := at_ % 64000000000
    let e := roundAway (((if r < 32000000000 then r else (r : Int) - 64000000000 : Int) : Rat) / 64)
    let s := wr CLK_SYNC_ERR_ERR (e % (2 ^ 32 : Nat)).toNat { s with servo := { s.servo with lastEdge := some at_ } }
    if rd s TIM_CFG_SRC = 2 then measureOffset e s else s
  | 2 =>
    if s.conv ≠ .dormant then s
    else
      let t := s.time + 80
      let s := setTime (t - t % 1000000000 + rd s CLK_SYNC_SYNC_OFS + 80) s
      resetChains (wr CLK_SYNC_MODE 1 { s with servo := { s.servo with lastEdge := some (64 * s.time) } })
  | _ => s

/-- A write to CLK_SYNC (R79): ALIGN is refused outside DORMANT, a write with a reserved code or a number out of range is
ignored whole (R600). -/
def clkSyncWrite (v : Word) (s : State) : State :=
  let mode := v.toNat % 4
  let ofs := v.toNat / 4
  if (mode = 2 ∧ s.conv ≠ .dormant) ∨ mode = 3 ∨ 1000000000 ≤ ofs then wrB CLK_STATUS_WRERR true s
  else wr CLK_SYNC_MODE mode (wr CLK_SYNC_SYNC_OFS ofs s)

/-- No SYNC_IN edge for 1.5 s (R93), whatever CLK_SYNC.MODE says of the edges. -/
def ppsLoss (s : State) : State :=
  match s.servo.lastEdge with
  | none => s
  | some t =>
    if rd s TIM_CFG_SRC ≠ 2 then s
    else enterHoldover { s with time := max s.time (t / 64 + 1500000000) }

/-! The commands. -/

/-- PLL_LOCK_DECLARED (R75). -/
def execPllLockDeclared (aOk : Bool) (b : RefSeen) (p : PllSeen) (s : State) : Host.Outcome State Fault Refusal :=
  cmd (lockDeclared aOk b p) s

/-- PLL_UNLOCK (R84). -/
def execPllUnlock (p : PllSeen) (s : State) : Host.Outcome State Fault Refusal := cmd (pllUnlock p) s

/-- LDMISMATCH (R76). -/
def execLdmismatch (s : State) : Host.Outcome State Fault Refusal := cmd lockMismatch s

/-- PLL_RELOCK (R86). -/
def execPllRelock (s : State) : Host.Outcome State Fault Refusal := cmd relock s

/-- REFCLK_A_LOSS (R82). -/
def execRefclkALoss (b : BitVec 24) (s : State) : Host.Outcome State Fault Refusal := cmd (refALoss b) s

/-- REFCLK_B_LOSS (R81). -/
def execRefclkBLoss (s : State) : Host.Outcome State Fault Refusal := cmd refBLoss s

/-- REFCLK_A_REVERT (R83). -/
def execRefclkARevert (b : BitVec 24) (s : State) : Host.Outcome State Fault Refusal := cmd (refARevert b) s

/-- BYPASS_ON_OSCILLATOR (R367). -/
def execBypassOnOscillator (s : State) : Host.Outcome State Fault Refusal := cmd bypassOsc s

/-- SYNC_IN_EDGE (R77). -/
def execSyncInEdge (s : State) : Host.Outcome State Fault Refusal := cmd syncEdge s

/-- PPS_LOSS (R93). -/
def execPpsLoss (s : State) : Host.Outcome State Fault Refusal := cmd ppsLoss s

/-- CLK_COMMIT_GO (R72). -/
def execClkCommitGo (v : Word) (s : State) : Host.Outcome State Fault Refusal := cmd (regWrite 0x200C v (clkCommit v)) s

/-- CLK_SYNC_ALIGN (R79). -/
def execClkSyncAlign (v : Word) (s : State) : Host.Outcome State Fault Refusal := cmd (regWrite 0x2018 v (clkSyncWrite v)) s

/-- TIM_SET_GO (R92). -/
def execTimSetGo (v : Word) (s : State) : Host.Outcome State Fault Refusal := cmd (regWrite 0x302C v (timSetGo v)) s

/-- TIM_LATCH (R506): any write captures the set. -/
def execTimLatch (v : Word) (s : State) : Host.Outcome State Fault Refusal := cmd (regWrite 0x3010 v timLatch) s

end Sys2Proof.Machine
end

