-- ==== Sys2Proof/Machine/HostQ.lean ====
section
/-! DEFINITION. Host contexts (chapter 18): doorbells, descriptor fetching and its checks, the records of a batch body,
completions, events, interrupts, protocol errors, attaching and detaching. Admission stands in Admit.lean. -/

namespace Sys2Proof.Machine

/-! Opcodes (R495). -/

/-- The code of an opcode. -/
def Opcode.code : Opcode → Nat
  | .nop => 0x00
  | .stageBatch => 0x01
  | .snapRead => 0x10
  | .ledgerFetch => 0x20
  | .progLoad => 0x30
  | .progStart => 0x31
  | .progStop => 0x32
  | .progChange => 0x33
  | .cellForce => 0x40
  | .cellUnforce => 0x41
  | .varForce => 0x42
  | .varUnforce => 0x43
  | .cellMbx => 0x50
  | .cellFw => 0x51
  | .imgSlice => 0x60
  | .imgFinish => 0x61
  | .attest => 0x70
  | .switchover => 0x80
  | .laneStart => 0x90
  | .laneStop => 0x91
  | .rateChange => 0x92
  | .deblock => 0x93
  | .blockOrderly => 0x94
  | .block => 0x95
  | .blockAck => 0x96

/-- All opcodes. -/
def allOpcodes : List Opcode :=
  [.nop, .stageBatch, .snapRead, .ledgerFetch, .progLoad, .progStart, .progStop, .progChange, .cellForce, .cellUnforce,
   .varForce, .varUnforce, .cellMbx, .cellFw, .imgSlice, .imgFinish, .attest, .switchover, .laneStart, .laneStop,
   .rateChange, .deblock, .blockOrderly, .block, .blockAck]

/-- The opcode of a code, if it is known. -/
def opcodeOf (c : Nat) : Option Opcode := allOpcodes.find? fun o => o.code == c

/-- The command class of an opcode; NOP has none. -/
def Opcode.cls : Opcode → Option Nat
  | .nop => none
  | .stageBatch => some 0
  | .snapRead => some 1
  | .ledgerFetch => some 2
  | .progLoad => some 3
  | .progStart => some 3
  | .progStop => some 3
  | .progChange => some 3
  | .cellForce => some 4
  | .cellUnforce => some 4
  | .varForce => some 4
  | .varUnforce => some 4
  | .cellMbx => some 5
  | .cellFw => some 5
  | .imgSlice => some 6
  | .imgFinish => some 6
  | .attest => some 7
  | .switchover => some 8
  | .laneStart => some 9
  | .laneStop => some 9
  | .rateChange => some 9
  | .deblock => some 9
  | .blockOrderly => some 9
  | .block => some 9
  | .blockAck => some 9

/-- Whether a command takes effect exactly at its effective tick. -/
def Opcode.timed : Opcode → Bool
  | .ledgerFetch => false
  | .progLoad => false
  | .cellMbx => false
  | .cellFw => false
  | .imgSlice => false
  | .imgFinish => false
  | .attest => false
  | _ => true

/-- Status codes (R503). -/
def Status.code : Status → Nat
  | .ok => 0x00
  | .refusedLate => 0x01
  | .refused => 0x02
  | .badDesc => 0x03
  | .denied => 0x04
  | .badOpcode => 0x05
  | .inhibited => 0x06
  | .notActive => 0x07
  | .noReply => 0x08
  | .noSegment => 0x09
  | .filling => 0x0A
  | .retainInvalid => 0x0B
  | .changeTimeout => 0x0C
  | .failed => 0x0D
  | .aborted => 0x0E
  | .sigInvalid => 0x0F

/-! Contexts. -/

/-- A host context. -/
def hctx (s : State) (n : Nat) : HostCtx := kget {} s.ctxs n

/-- Changes a host context. -/
def modHctx (n : Nat) (f : HostCtx → HostCtx) (s : State) : State := { s with ctxs := kmod {} s.ctxs n f }

/-- State codes of HST_STAT (R514). -/
def hOff : Nat := 0
def hRun : Nat := 1
def hDraining : Nat := 2
def hError : Nat := 3

/-- State of context `n`. -/
def hstate (s : State) (n : Nat) : Nat := rd s (HST_STAT_STATE n)

/-- Whether a context's completions and events are discarded: OFF, ERROR, or draining from ERROR (R492, R511, R512). -/
def hDiscards (s : State) (n : Nat) : Bool :=
  hstate s n == hOff || hstate s n == hError || (hstate s n == hDraining && rd s (HST_STAT_ERRCODE n) != 0)

/-- Size of the submission ring (R488). -/
def sqSize (s : State) (n : Nat) : Nat := 2 ^ rd s (HST_RING_SQ_LOG n)
/-- Size of the completion ring (R488). -/
def cqSize (s : State) (n : Nat) : Nat := 2 ^ rd s (HST_RING_CQ_LOG n)

/-- Free slots of the completion ring; a ring holds at most its size minus 1 entries (R488, R490). -/
def cqRoom (s : State) (n : Nat) : Nat :=
  let size := cqSize s n
  size - 1 - (rd s (HST_CQTAIL_TAIL n) + size - (hctx s n).cqHead) % size

/-- Whether context `n` may fetch a descriptor now (R464, R489, R510, R511). -/
def mayFetch (s : State) (n : Nat) : Bool :=
  hstate s n == hRun && rd s (HST_SQHEAD_HEAD n) != (hctx s n).sqTail &&
    decide (rd s FMN_STATUS_INFLIGHT < 256) && decide (rd s (HST_STAT_INFLIGHT n) < 64) &&
    decide ((hctx s n).sub.length < 128)

/-- Whether fetching is stopped for context `n` although its doorbell is pending (R464). -/
def fetchHeld (s : State) (n : Nat) : Bool :=
  hstate s n == hRun && rd s (HST_SQHEAD_HEAD n) != (hctx s n).sqTail && !mayFetch s n

/-- Shows the submission flow's items and FETCHSTOP (R469). -/
def hostRefresh (n : Nat) (s : State) : State :=
  let c := hctx s n
  let s := wr (FMN_FLOWSTAT_QUEUED n) (min 255 (c.sub.length - rd s (FMN_FLOWSTAT_INSVC n))) s
  let s := wr (FMN_FLOWSTAT_QUEUED (16 + n)) (min 255 (c.out.length - rd s (FMN_FLOWSTAT_INSVC (16 + n)))) s
  let held := fetchHeld s n
  let s := if held && !rdB s (FMN_FLOWSTAT_BP n) then count FMN_BP_CNT_COUNT s else s
  let s := wrB (FMN_FLOWSTAT_BP n) held s
  wrB FMN_STATUS_FETCHSTOP ((List.range 16).any fun k => fetchHeld s k) s

/-- One command less in flight (R464). -/
def landed (n : Nat) (s : State) : State :=
  wr FMN_STATUS_INFLIGHT (rd s FMN_STATUS_INFLIGHT - 1) (wr (HST_STAT_INFLIGHT n) (rd s (HST_STAT_INFLIGHT n) - 1) s)

/-! Completions (R502). -/

/-- The Timecount of mark `t` in the numbering in force. -/
def timeOfTick (s : State) (t : Tick) : Nat := ((s.markAt : Int) + tickDiff t s.tick * tickLen s).toNat

/-- A completion enters its context's completion flow, or is discarded and counted (R463, R492, R512). -/
def pushCompletion (n : Nat) (c : Completion) (s : State) : State :=
  if hDiscards s n then hostRefresh n (landed n (count (HST_DROP_CNT_COUNT n) s))
  else hostRefresh n (modHctx n (fun x => { x with out := x.out ++ [.completion c] }) s)

/-- A command completes (R500, R502). A mirrored command posts nothing (R513). -/
def complete (c : HostCmd) (st : Status) (info : List Byte) (etick : Tick) (result : Option (List Byte)) (s : State) :
    State :=
  if c.mirrored then s
  else pushCompletion c.ctx {
    tag := c.tag, status := st, opc := BitVec.ofNat 8 c.opc.code, etick := etick
    time := if c.opc.timed then some (timeOfTick s etick) else none
    result := result.map fun b => (c.haddr, b)
    info := info, noIrq := c.noIrq } s

/-- A refusal at release carries the tick m of R497 in ETICK (R502). -/
def refuse (c : HostCmd) (st : Status) (info : List Byte) (s : State) : State := complete c st info s.tick none s

/-- The completion of a descriptor that failed its checks at its fetch, as written at its release: ETICK is the tick m of R497,
and TIME that of mark m where the echoed opcode is a timed one (R502). -/
def badCompletion (s : State) (b : Completion) : Completion :=
  { b with
    etick := s.tick
    time := if (opcodeOf b.opc.toNat).any Opcode.timed then some (timeOfTick s s.tick) else none }

/-- INFO of a REFUSED completion for an opcode other than STAGE_BATCH (R608). -/
def refusedInfo (reason : Nat) : List Byte := [0, BitVec.ofNat 8 reason]

/-- Refuses with status REFUSED and a reason of R608. -/
def refuseR (reason : Nat) (c : HostCmd) (s : State) : State := refuse c .refused (refusedInfo reason) s

/-- An accepted command completes: it leaves the accepted commands (R500). -/
def finish (order : Nat) (st : Status) (info : List Byte) (result : Option (List Byte)) (s : State) : State :=
  match s.accepted.find? fun a => a.order == order with
  | none => s
  | some a => complete a.cmd st info a.tick result
      { s with accepted := s.accepted.filter fun b => b.order != order }

/-! Ring entries (R490, R502, R504, R509). -/

/-- The 32 bytes of a completion entry. -/
def completionBytes (c : Completion) (phase : Bool) (cseq : BitVec 16) (now : Nat) : List Byte :=
  leBytes 2 c.tag.toNat ++ leBytes 1 c.status.code ++ leBytes 1 (bitNat phase) ++ leBytes 2 cseq.toNat ++ [c.opc, 0] ++
  leBytes 4 c.etick.toNat ++ leBytes 8 (c.time.getD now) ++
  leBytes 4 (match c.result with | some r => r.2.length | none => 0) ++ padTo 8 c.info

/-- Whether an event takes two entries (R504). -/
def DevEvent.ext (e : DevEvent) : Bool := decide (12 < e.data.length)

/-- The first entry of an event. -/
def eventBytes (e : DevEvent) (phase : Bool) (cseq : BitVec 16) : List Byte :=
  leBytes 2 e.ecode.toNat ++ leBytes 1 (min 255 e.mcnt) ++
  leBytes 1 (bitNat phase + 2 + 4 * bitNat e.ext + 8 * bitNat e.overflow) ++ leBytes 2 cseq.toNat ++ [0, 0] ++
  leBytes 4 e.tick.toNat ++ leBytes 8 e.time ++ padTo 12 e.data

/-- The extension entry of an event. -/
def extBytes (e : DevEvent) (phase : Bool) : List Byte :=
  let d := padTo 43 e.data
  (d.drop 12).take 3 ++ leBytes 1 (bitNat phase + 2 + 16) ++ d.drop 15

/-- Writes one ring entry at the tail and moves it (R490); the bytes depend on PHASE. -/
def putEntry (n : Nat) (f : Bool → List Byte) (s : State) : State :=
  let t := rd s (HST_CQTAIL_TAIL n)
  let ph := rdB s (HST_CQTAIL_PHASE n)
  let wrap := decide (t + 1 = cqSize s n)
  let s := emit (.ringEntry n t (f ph)) s
  wr (HST_CQTAIL_TAIL n) (if wrap then 0 else t + 1) (wrB (HST_CQTAIL_PHASE n) (if wrap then !ph else ph) s)

/-- The tail and PHASE of the entry after the next one. -/
def phaseAfter (s : State) (n : Nat) : Nat × Bool :=
  let t := rd s (HST_CQTAIL_TAIL n)
  let ph := rdB s (HST_CQTAIL_PHASE n)
  if t + 1 = cqSize s n then (0, !ph) else (t + 1, ph)

/-- Writes an event of two entries: the extension entry first, into the second slot (R491). -/
def putEvent2 (n : Nat) (e : DevEvent) (cseq : BitVec 16) (s : State) : State :=
  let (t2, ph2) := phaseAfter s n
  let s := emit (.ringEntry n t2 (extBytes e ph2)) s
  let s := putEntry n (fun ph => eventBytes e ph cseq) s
  let t := rd s (HST_CQTAIL_TAIL n)
  let ph := rdB s (HST_CQTAIL_PHASE n)
  let wrap := decide (t + 1 = cqSize s n)
  wr (HST_CQTAIL_TAIL n) (if wrap then 0 else t + 1) (wrB (HST_CQTAIL_PHASE n) (if wrap then !ph else ph) s)

/-- Counts an unsignalled entry towards its vector and raises it when COAL_CNT is reached (R509). -/
def signal (n : Nat) (events : Bool) (s : State) : State :=
  let c := hctx s n
  let on := if events then rdB s (HST_IRQ_EEN n) else rdB s (HST_IRQ_CEN n)
  if !on then s
  else
    let k := (if events then c.irqE else c.irqC) + 1
    if rd s (HST_IRQ_COAL_CNT n) ≤ k then
      emit (.msix n (bitNat events))
        (modHctx n (fun c => if events then { c with irqE := 0, irqEAt := none } else { c with irqC := 0, irqCAt := none }) s)
    else modHctx n (fun c =>
      if events then { c with irqE := k, irqEAt := some (c.irqEAt.getD s.time) }
      else { c with irqC := k, irqCAt := some (c.irqCAt.getD s.time) }) s

/-- Writes the oldest item of the completion flow to the ring, if the ring has room for it (R465, R490, R491). A
draining context posts no events (R511). -/
def completionWrite (n : Nat) (s : State) : State :=
  if !(hstate s n == hRun || hstate s n == hDraining) || hDiscards s n then s
  else
    let c := hctx s n
    match c.out with
    | [] => s
    | .completion d :: r =>
      if cqRoom s n < 1 then s
      else
        let s := match d.result with
          | some (a, b) => emit (.hostData n a b) s
          | none => s
        let s := putEntry n (fun ph => completionBytes d ph c.cseq s.time) s
        let s := modHctx n (fun c => { c with out := r, cseq := c.cseq + 1 }) s
        flowReleased (16 + n) (hostRefresh n (landed n (if d.noIrq then s else signal n false s)))
    | .event e :: r =>
      if hstate s n == hDraining then hostRefresh n (modHctx n (fun c => { c with out := r }) s)
      else if cqRoom s n < (if e.ext then 2 else 1) then s
      else
        let s := if e.ext then putEvent2 n e c.cseq s else putEntry n (fun ph => eventBytes e ph c.cseq) s
        let s := modHctx n (fun c => { c with out := r, cseq := c.cseq + 1 }) s
        flowReleased (16 + n) (hostRefresh n (signal n true s))

/-- COAL_US after the first unsignalled entry the vector is raised (R509). -/
def coalesceTimeout (n : Nat) (events : Bool) (s : State) : State :=
  let c := hctx s n
  let us := rd s (HST_IRQ_COAL_US n)
  let on := if events then rdB s (HST_IRQ_EEN n) else rdB s (HST_IRQ_CEN n)
  match (if events then c.irqEAt else c.irqCAt) with
  | none => s
  | some t =>
    if us = 0 || !on then s
    else emit (.msix n (bitNat events))
      (modHctx n (fun c => if events then { c with irqE := 0, irqEAt := none } else { c with irqC := 0, irqCAt := none })
        { s with time := max s.time (t + us * 1000) })

/-! Protocol errors (R492). -/

/-- Ring entries of an item (R490, R504). -/
def CqItem.entries : CqItem → Nat
  | .completion _ => 1
  | .event e => if e.ext then 2 else 1

/-- Discards what waits in a context's completion flow, counting its entries (R492, R514). -/
def discardOut (n : Nat) (s : State) : State :=
  let out := (hctx s n).out
  let s := modHctx n (fun c => { c with out := [] }) s
  let s := countN (HST_DROP_CNT_COUNT n) (out.map CqItem.entries).sum s
  out.foldl (fun s x => match x with
    | .completion _ => landed n s
    | .event _ => s) s

/-- A protocol error with its ERRCODE and address: the context enters ERROR (R492, R514). -/
def protoError (n reason : Nat) (addr : BitVec 64) (s : State) : State :=
  if hstate s n == hOff || hstate s n == hError || reason = 0 then s
  else
    let s := wr (HST_STAT_ERRCODE n) reason (wr (HST_STAT_STATE n) hError s)
    let s := hostRefresh n (discardOut n s)
    let s := if rdB s (HST_IRQ_XEN n) then emit (.msix n 2) s else s
    raiseSrc { src := .hostProtocol, reason := BitVec.ofNat 8 reason, detail := BitVec.ofNat 16 n
               master := BitVec.ofNat 6 (0x20 + n), access := if reason = 4 ∨ reason = 5 then 1 else 2, addr := addr } s

/-- A doorbell write of SQ_TAIL (R489); to an OFF context it is ignored (R492). -/
def sqTail (n : Nat) (v : Word) (s : State) : State :=
  let i := v.toNat % 4096
  if hstate s n == hOff || hstate s n == hError then s
  else if sqSize s n ≤ i then protoError n 1 0 s
  else hostRefresh n (modHctx n (fun c => { c with sqTail := i }) s)

/-- A doorbell write of CQ_HEAD frees the entries before it (R490); past an unwritten entry it is a protocol error. -/
def cqHead (n : Nat) (v : Word) (s : State) : State :=
  let i := v.toNat % 4096
  let size := cqSize s n
  if hstate s n == hOff || hstate s n == hError then s
  else if size ≤ i then protoError n 2 4 s
  else
    let h := (hctx s n).cqHead
    if (rd s (HST_CQTAIL_TAIL n) + size - h) % size < (i + size - h) % size then protoError n 3 4 s
    else hostRefresh n (modHctx n (fun c => { c with cqHead := i }) s)

/-! The records of a batch body (R501). -/

/-- A record of a batch. -/
structure BatchRec where
  table   : Nat
  rsv     : Nat
  count   : Nat
  first   : Nat
  entries : List (List Byte)
  deriving DecidableEq, Repr

/-- How reading the records ended. -/
inductive BatchEnd where
  | whole               -- the records fill the body
  | short               -- LEN is not the sum of the record lengths
  | header              -- the next record's header is at fault: TABLE, COUNT or FIRST (R608)
  deriving DecidableEq, Repr

/-- Reads a record's header. -/
def batchHeader (b : List Byte) : BatchRec :=
  { table := fld b 0 0 8, rsv := fld b 1 0 8, count := fld b 2 0 16, first := fld b 4 0 32, entries := [] }

/-- Whether a record's header is at fault (R608): a reserved code or byte, COUNT 0, entries beyond the table, or a swap
record whose FIRST is not 0. -/
def badHeader (r : BatchRec) : Bool :=
  entrySize r.table == 0 || r.rsv != 0 || r.count == 0 || decide (entryCount r.table < r.first + r.count) ||
    (r.table == 0x10 && r.first != 0)

/-- Reads the records of a body, up to the first whose header is at fault. -/
def batchRecs : Nat → List Byte → List BatchRec × BatchEnd
  | 0, _ => ([], .short)
  | fuel + 1, b =>
    if b.isEmpty then ([], .whole)
    else if b.length < 8 then ([], .short)
    else
      let h := batchHeader b
      let n := h.count * entrySize h.table
      if entrySize h.table = 0 then ([h], .header)
      else if b.length < 8 + n then ([], .short)
      else if badHeader h then ([h], .header)
      else
        let r := { h with entries := chunks (entrySize h.table) h.count ((b.drop 8).take n) }
        let (rs, e) := batchRecs fuel (b.drop (8 + n))
        (r :: rs, e)

/-- The records of a body. -/
def recsOf (b : List Byte) : List BatchRec × BatchEnd := batchRecs (b.length / 8 + 1) b

/-! Descriptors (R493 to R495). -/

/-- For each parameter byte of an opcode, the bits that carry something; the others are reserved. -/
def paramMask (o : Opcode) (tai : Bool) : List Nat :=
  match o with
  | .snapRead => [255, 255, 255, 255, 255, 255]
  | .ledgerFetch => [255, 255, 1, 0, 255, 255, 255, 255]
  | .progStart => [1]
  | .cellForce => [255, 255, 255]
  | .cellUnforce => [255, 255]
  | .varForce => List.replicate 8 255 ++ [7]
  | .varUnforce => List.replicate 4 255
  | .cellMbx => [255, 255, 255, 0, 255, 255, 255, 255]
  | .cellFw => List.replicate 20 255
  | .imgSlice => [255, 0, 0, 0, 255, 255, 255, 255]
  | .imgFinish => [255]
  | .attest => List.replicate 16 255
  | .rateChange => [1]
  | .deblock => if tai then List.replicate 8 255 else []
  | _ => []

/-- Result size of a snapshot set; none for a reserved SET or TABLE (R507). -/
def snapSize (set_ table n : Nat) : Option Nat :=
  match set_ with
  | 0x01 => some 320
  | 0x02 => some (8 * n)
  | 0x03 => some 1280
  | 0x04 => if entrySize table = 0 then none else some (n * entrySize table)
  | 0x05 => some 384
  | 0x06 => some 104
  | _ => none

/-- Whether LEN lies within the limits of the opcode (R495). -/
def lenOk (o : Opcode) (p : List Byte) (n : Nat) : Bool :=
  match o with
  | .stageBatch => decide (8 ≤ n ∧ n ≤ 4 * 2 ^ 20)
  | .snapRead => (match snapSize (fld p 0 0 8) (fld p 1 0 8) (fld p 4 0 16) with
    | some k => decide (k ≤ n)
    | none => true)
  | .ledgerFetch => true
  | .progLoad => decide (n ≤ 64 * 2 ^ 20)
  | .cellMbx => n == 0 || n == 64
  | .cellFw => decide (n ≤ 16 * 2 ^ 20)
  | .imgSlice => decide (1 ≤ n ∧ n ≤ 65536)
  | .attest => decide (640 ≤ n)
  | _ => n == 0

/-- A reserved code in a parameter, as the descriptor byte it stands in (R8, R495). -/
def badParamCode (o : Opcode) (p : List Byte) : List Nat :=
  match o with
  | .snapRead =>
    let st := fld p 0 0 8
    if snapSize st (fld p 1 0 8) 0 = none then [if st = 4 then 25 else 24] else []
  | .varForce => if 6 ≤ fld p 8 0 3 then [32] else []
  | .imgSlice => if 1 ≤ fld p 0 0 8 ∧ fld p 0 0 8 ≤ 5 then [] else [24]
  | .imgFinish => if 1 ≤ fld p 0 0 8 ∧ fld p 0 0 8 ≤ 5 then [] else [24]
  | _ => []

/-- Every failing byte of a descriptor whose DCRC is good and whose opcode is known (R494). -/
def badBytes (o : Opcode) (b : List Byte) : List Nat :=
  let nb := fldB b 1 0
  let tai := fldB b 1 1
  let len := fld b 12 0 32
  let p := (b.drop 24).take 28
  (if fld b 1 3 5 ≠ 0 ∨ (tai ∧ (o ≠ .deblock ∨ nb)) then [1] else []) ++
  (if nb then [] else (List.range 4).filterMap fun i => if b.getD (8 + i) 0 = 0 then none else some (8 + i)) ++
  (if lenOk o p len then [] else [12]) ++
  (if fld b 16 0 6 ≠ 0 ∨ (len = 0 ∧ fld b 16 0 64 ≠ 0) then [16] else []) ++
  ((List.range 28).filterMap fun i =>
    if (p.getD i 0).toNat &&& (255 - (paramMask o tai).getD i 0) = 0 then none else some (24 + i)) ++
  badParamCode o p ++
  ((List.range 10).filterMap fun i => if b.getD (52 + i) 0 = 0 then none else some (52 + i))

/-- A completion made at the fetch for a descriptor that fails its checks; it waits for its release (R463, R494). -/
def fetchFail (b : List Byte) (st : Status) (info : List Byte) : SubItem :=
  { cmd := none, bad := some { tag := BitVec.ofNat 16 (fld b 2 0 16), status := st, opc := b.getD 0 0, etick := 0
                               info := info, noIrq := fldB b 1 2 } }

/-- Reads a descriptor with the bytes of its buffer (R493, R494, R501). -/
def readDesc (n : Nat) (b body : List Byte) : SubItem :=
  if crc crc16 (b.take 62) ≠ fld b 62 0 16 then fetchFail b .badDesc [62]
  else match opcodeOf (fld b 0 0 8) with
    | none => fetchFail b .badOpcode []
    | some o =>
      let len := fld b 12 0 32
      let body := padTo len body
      match (badBytes o b).min? with
      | some k => fetchFail b .badDesc [BitVec.ofNat 8 k]
      | none =>
        if o = .stageBatch ∧ (recsOf body).2 = .short then fetchFail b .badDesc [12]
        else { cmd := some {
          ctx := n, opc := o, tag := BitVec.ofNat 16 (fld b 2 0 16), noIrq := fldB b 1 2
          nbTick := if fldB b 1 0 then some (BitVec.ofNat 32 (fld b 8 0 32)) else none
          tai := if fldB b 1 1 then some (fld b 24 0 64) else none
          dlv := BitVec.ofNat 32 (fld b 4 0 32), len := len, haddr := BitVec.ofNat 64 (fld b 16 0 64)
          param := (b.drop 24).take 28, body := body } }

/-- The Foreman fetches the descriptor at a context's head (R464, R489). -/
def descriptorFetch (n : Nat) (b body : List Byte) (s : State) : State :=
  if !mayFetch s n then s
  else
    let h := rd s (HST_SQHEAD_HEAD n)
    let s := wr (HST_SQHEAD_HEAD n) (if h + 1 = sqSize s n then 0 else h + 1) s
    let s := wr FMN_STATUS_INFLIGHT (rd s FMN_STATUS_INFLIGHT + 1) s
    let s := wr (HST_STAT_INFLIGHT n) (rd s (HST_STAT_INFLIGHT n) + 1) s
    hostRefresh n (modHctx n (fun c => { c with sub := c.sub ++ [readDesc n b body] }) s)

/-! Attaching and detaching (R510 to R512). -/

/-- Writing EN 1 (R510). `vf` says whether the context's VF is enabled; context 0 belongs to the PF (R485). -/
def contextAttach (n : Nat) (vf : Bool) (s : State) : State :=
  if !(s.dev == .setup || s.dev == .run) then s
  else if hstate s n == hRun then s
  else
    let ok := hstate s n == hOff && (n == 0 || vf) && rd s (HST_SQBASE_LO_A n) % 4096 == 0 &&
      rd s (HST_CQBASE_LO_A n) % 4096 == 0 && decide (4 ≤ rd s (HST_RING_SQ_LOG n) ∧ rd s (HST_RING_SQ_LOG n) ≤ 12) &&
      decide (4 ≤ rd s (HST_RING_CQ_LOG n) ∧ rd s (HST_RING_CQ_LOG n) ≤ 12)
    if !ok then wrB (HST_STAT_WRERR n) true s
    else
      let s := modHctx n (fun c => { c with vfOn := vf, sqTail := 0, cqHead := 0, cseq := 0, out := [], irqC := 0
                                            irqE := 0, irqCAt := none, irqEAt := none }) s
      let s := wr (HST_SQHEAD_HEAD n) 0 (wr (HST_CQTAIL_TAIL n) 0 (wrB (HST_CQTAIL_PHASE n) true s))
      hostRefresh n (wr (HST_STAT_ERRCODE n) 0 (wrB (HST_CTRL_EN n) true (wr (HST_STAT_STATE n) hRun s)))

/-- Fetched commands not yet released complete ABORTED (R511). -/
def abortUnreleased (n : Nat) (s : State) : State :=
  let items := (hctx s n).sub
  let s := modHctx n (fun c => { c with sub := [] }) s
  items.foldl (fun s i => match i.cmd, i.bad with
    | some c, _ => refuse c .aborted [] s
    | none, some b => pushCompletion n { badCompletion s b with status := .aborted, info := [] } s
    | none, none => s) s

/-- Writing EN 0 to a context in RUN or ERROR starts a detach (R511). -/
def contextDetach (n : Nat) (s : State) : State :=
  if hstate s n == hRun || hstate s n == hError then
    hostRefresh n (abortUnreleased n (wrB (HST_CTRL_EN n) false (wr (HST_STAT_STATE n) hDraining s)))
  else s

/-- A DRAINING context with no command in flight becomes OFF (R511). -/
def drainComplete (n : Nat) (s : State) : State :=
  if hstate s n == hDraining && rd s (HST_STAT_INFLIGHT n) == 0 then
    hostRefresh n (wr (HST_STAT_STATE n) hOff (modHctx n (fun c => { c with out := [] }) s))
  else s

/-- A context becomes OFF at once (R512): unreleased commands are discarded, untimed ones stop after their current
step, timed ones still take effect with their completions discarded. -/
def resetContext (n : Nat) (s : State) : State :=
  let items := (hctx s n).sub.length
  let s := (List.range items).foldl (fun s _ => landed n s) s
  let s := discardOut n s
  let stop := fun (a : Accepted) => decide (a.cmd.ctx = n) && !a.cmd.mirrored && !a.cmd.opc.timed
  let s := (s.accepted.filter stop).foldl (fun s _ => landed n s) s
  let s := { s with
    accepted := s.accepted.filter fun a => !stop a
    fwJob := match s.fwJob with
      | some j => if j.ctx = n then none else some j
      | none => none }
  let s := modHctx n (fun c => { c with sub := [], sqTail := 0, cqHead := 0, vfOn := false, irqC := 0, irqE := 0
                                        irqCAt := none, irqEAt := none }) s
  hostRefresh n (wrB (HST_CTRL_EN n) false (wr (HST_STAT_STATE n) hOff s))

/-- The contexts a reset concerns (R512). -/
def resetContexts : ResetKind → List Nat
  | .flrPf => List.range 16
  | .perst => List.range 16
  | .vfDisable => (List.range 16).drop 1
  | .flrVf k => if k.val = 0 then [] else [k.val]

/-- A function-level reset, clearing of VF Enable, or PERST_N (R512). -/
def functionReset (k : ResetKind) (s : State) : State := (resetContexts k).foldl (fun s n => resetContext n s) s

/-! Events (R466, R504, R505). -/

/-- Puts an event into the completion flow of every attached context whose mask names its group (R505); a context in ERROR discards and
counts it (R492). -/
def releaseEvent (g : Nat) (e : DevEvent) (s : State) : State :=
  forUpto 16 s fun s n =>
    if !rdBit s (HST_EVMASK_GROUP n) g then s
    else if hstate s n == hRun then hostRefresh n (modHctx n (fun c => { c with out := c.out ++ [.event e] }) s)
    else if hstate s n == hError then countN (HST_DROP_CNT_COUNT n) (CqItem.event e).entries s
    else s

/-- The oldest item of event flow 42 + `g` is released; the reserve moves up (R461, R466). -/
def releaseFromFlow (g : Nat) (s : State) : State :=
  let q := kget {} s.fmn.evq g
  match q.queue with
  | [] => s
  | e :: r =>
    let q := { q with queue := r ++ q.reserve.take 1, reserve := q.reserve.drop 1 }
    flowReleased (42 + g) (releaseEvent g e { s with fmn := { s.fmn with evq := kset {} s.fmn.evq g q } })

/-- Merges an event into the newest of a list that `same` picks; none if there is none (R466). -/
def mergeNewest (same : DevEvent → Bool) (f : DevEvent → DevEvent) (l : List DevEvent) : Option (List DevEvent) :=
  match l.reverse.findIdx? same with
  | none => none
  | some i => some (l.reverse.modify i f).reverse

/-- Merges an event into the newest queued one that `same` picks, of those in the reserve first, since they came later (R466). -/
def mergeQueued (same : DevEvent → Bool) (f : DevEvent → DevEvent) (q : EventFlow) : Option EventFlow :=
  match mergeNewest same f q.reserve with
  | some l => some { q with reserve := l }
  | none => (mergeNewest same f q.queue).map fun l => { q with queue := l }

/-- An event that finds flow 42 + `g` full takes its place in the queue or the reserve (R466). With the reserve full and no event of its
kind queued it is still kept, since none is dropped. -/
def placeEvent (e : DevEvent) (q : EventFlow) : EventFlow :=
  let more := fun (x : DevEvent) => { x with mcnt := x.mcnt + 1 }
  match mergeQueued (fun x => decide (x.ecode = e.ecode ∧ x.data = e.data)) more q with
  | some q => q
  | none =>
    if q.reserve.length < 64 then { q with reserve := q.reserve ++ [e] }
    else (mergeQueued (fun x => decide (x.ecode = e.ecode)) (fun x => { more x with overflow := true }) q).getD
      { q with reserve := q.reserve ++ [e] }

/-- An event arrives at a full flow (R466); the first time in a tick that the reserve is then full raises RESERVE (R467). -/
def eventFlowFull (g : Nat) (e : DevEvent) (s : State) : State :=
  let q := placeEvent e (kget {} s.fmn.evq g)
  let raise := decide (64 ≤ q.reserve.length) && !q.raised
  let s := count FMN_COAL_CNT_COUNT s
  let s := { s with fmn := { s.fmn with evq := kset {} s.fmn.evq g { q with raised := q.raised || raise } } }
  if raise then fault .foremanStall 2 (42 + g) s else s

/-! The commands. -/

/-- SQ_TAIL (R489). -/
def execSqTail (n : CtxIx) (v : Word) (s : State) : Host.Outcome State Fault Refusal := cmd (sqTail n.val v) s

/-- CQ_HEAD (R490). -/
def execCqHead (n : CtxIx) (v : Word) (s : State) : Host.Outcome State Fault Refusal := cmd (cqHead n.val v) s

/-- DESCRIPTOR_FETCH (R464): the descriptor has 64 bytes. -/
def execDescriptorFetch (n : CtxIx) (b body : List Byte) (s : State) : Host.Outcome State Fault Refusal :=
  if b.length ≠ 64 then .fault .illFormed else cmd (descriptorFetch n.val b body) s

/-- COMPLETION_WRITE (R491). -/
def execCompletionWrite (n : CtxIx) (s : State) : Host.Outcome State Fault Refusal := cmd (completionWrite n.val) s

/-- MSIX_COALESCE_TIMEOUT (R509). -/
def execMsixCoalesceTimeout (n : CtxIx) (events : Bool) (s : State) : Host.Outcome State Fault Refusal :=
  cmd (coalesceTimeout n.val events) s

/-- HOST_PROTOCOL (R492). -/
def execHostProtocol (n : CtxIx) (reason : Fin 7) (addr : BitVec 64) (s : State) : Host.Outcome State Fault Refusal :=
  cmd (protoError n.val reason.val addr) s

/-- CONTEXT_ATTACH (R510). -/
def execContextAttach (n : CtxIx) (vf : Bool) (s : State) : Host.Outcome State Fault Refusal :=
  cmd (contextAttach n.val vf) s

/-- CONTEXT_DETACH (R511). -/
def execContextDetach (n : CtxIx) (s : State) : Host.Outcome State Fault Refusal := cmd (contextDetach n.val) s

/-- DRAIN_COMPLETE (R511). -/
def execDrainComplete (n : CtxIx) (s : State) : Host.Outcome State Fault Refusal := cmd (drainComplete n.val) s

/-- FUNCTION_RESET (R512). -/
def execFunctionReset (k : ResetKind) (s : State) : Host.Outcome State Fault Refusal := cmd (functionReset k) s

/-- EVENT_FLOW_FULL (R466). -/
def execEventFlowFull (g : Fin 6) (e : DevEvent) (s : State) : Host.Outcome State Fault Refusal :=
  cmd (eventFlowFull g.val e) s

end Sys2Proof.Machine
end

