-- ==== Sys2Proof/Machine/Port.lean ====
section
/-! DEFINITION. The Ethernet ports (R515 to R524, R531): their state, the PTP role and state of each, and going down. -/

namespace Sys2Proof.Machine

/-- A port's running state. -/
def port (s : State) (p : Nat) : PortSt := kget {} s.net.ports p

/-- Changes a port. -/
def modPort (p : Nat) (f : PortSt → PortSt) (s : State) : State :=
  { s with net := { s.net with ports := kmod {} s.net.ports p f } }

/-- A port is up (R515). -/
def portUp (s : State) (p : Nat) : Bool := rdB s (NET_PORTSTAT_LINK p)

/-! PTP roles and states (R521 to R524). -/

/-- The port belongs to the slave pair. -/
def slavePair (s : State) (p : Nat) : Bool := rd s NET_PTPCFG_SPAIR == p / 2

/-- The device is an ordinary or a boundary clock. -/
def ptpOn (s : State) : Bool := rd s NET_PTPCFG_ROLE == 1 || rd s NET_PTPCFG_ROLE == 2

/-- A port of a boundary clock's master pair. -/
def masterPort (s : State) (p : Nat) : Bool := rd s NET_PTPCFG_ROLE == 2 && !slavePair s p

/-- A port runs PTP (R522). -/
def ptpPort (s : State) (p : Nat) : Bool := ptpOn s && (slavePair s p || masterPort s p)

/-- Codes of NET_PORTSTAT.PTPSTATE (R532). -/
def pDisabled : Nat := 0
def pListening : Nat := 1
def pSlave : Nat := 2
def pPassiveSlave : Nat := 3
def pMaster : Nat := 4
def pPassive : Nat := 5
def pFaulty : Nat := 6

/-- A port's PTP state. -/
def pstate (s : State) (p : Nat) : Nat := rd s (NET_PORTSTAT_PTPSTATE p)

/-- Sets a port's PTP state. -/
def setPtp (p st : Nat) (s : State) : State := wr (NET_PORTSTAT_PTPSTATE p) st s

/-- Whether a master port sends (R524). -/
def masterSends (s : State) : Bool := commands s && (rd s TIM_STATUS_TSTATE == 2 || rd s TIM_STATUS_TSTATE == 3)

/-- The partner of a port in its pair. -/
def partnerPort (p : Nat) : Nat := if p % 2 = 0 then p + 1 else p - 1

/-- A slave port hears a master: it is up and has not reached its announce timeout. -/
def hears (s : State) (p : Nat) : Bool := portUp s p && (port s p).best.isSome && !(port s p).timedOut

/-- Both ports of the slave pair are down or timed out: the servo loses its source (R523). -/
def slavesLost (s : State) : State :=
  let p0 := 2 * rd s NET_PTPCFG_SPAIR
  if ptpOn s && rd s TIM_CFG_SRC == 1 && !hears s p0 && !hears s (p0 + 1) then enterHoldover s else s

/-! Down (R515, R517, R531). -/

/-- A port goes down (R515, R531). -/
def takeDown (p : Nat) (s : State) : State :=
  if !portUp s p then s
  else
    let s := count (NET_LINKDN_CNT_COUNT p) (wrB (NET_PORTSTAT_LINK p) false s)
    let s := setPtp p (if ptpPort s p then pFaulty else pDisabled) s
    slavesLost (modPort p (fun x => { x with best := none, syncWait := none, pdT1 := none, pdT2 := none }) s)

/-- All Ethernet ports go down. -/
def portsDown (s : State) : State := forUpto 4 s fun s p => takeDown p s

end Sys2Proof.Machine
end

