-- ==== Sys2Proof/Machine/Protect.lean ====
section
/-! DEFINITION. Protection and safety functions (chapter 12): the comparators of the fast path, cell overvoltage and
arm shorts, safety inputs, demands, safety outputs with their feedback, safe telegrams and the safety reset. -/

namespace Sys2Proof.Machine

/-- Quality codes (R212). -/
def qFine : BitVec 3 := 0
def qCoarse : BitVec 3 := 1
def qUnsync : BitVec 3 := 2
def qHeld : BitVec 3 := 3
def qQuest : BitVec 3 := 4
def qBad : BitVec 3 := 5

/-- The highest-numbered code stands (R213). -/
def qMax (a b : BitVec 3) : BitVec 3 := if a.toNat < b.toNat then b else a

/-! The comparators of the fast path (R343, R344). -/

/-- What a comparator does with one fast output: its next state and whether it fires. `deb`: the converter is DEBLOCKED, in
which BAD outputs count. -/
def cmpStep (deb : Bool) (limit : F32) (count : Nat) (v : F32) (q : BitVec 3) (c : FastCmp) : FastCmp × Bool :=
  if q = qBad then ({ c with hits := 0, low := 0, bad := if deb then c.bad + 1 else 0 }, false)
  else
    let c := { c with bad := 0, badDone := false }
    let mag := abs32 v
    if c.armed then
      if le32 limit mag then
        if count ≤ c.hits + 1 then ({ c with hits := 0, low := 0, armed := false }, true)
        else ({ c with hits := c.hits + 1 }, false)
      else ({ c with hits := 0 }, false)
    else if rat32 mag < 9 / 10 * rat32 limit then
      if count ≤ c.low + 1 then ({ c with hits := 0, low := 0, armed := true }, false)
      else ({ c with low := c.low + 1 }, false)
    else ({ c with low := 0 }, false)

/-- The raise of a comparator: arm 0 to 11, or pole 12 (positive) and 13 (negative) of DC_OV. It goes by the direct
block line while its severity is BLOCK or TRIP (R341). -/
def cmpRaise (s : State) (i reason : Nat) : Raise :=
  let src : Src := if i < 12 then .armOc else .dcOv
  { src := src, reason := BitVec.ofNat 8 reason, detail := BitVec.ofNat 16 (if i < 12 then i else i - 12)
    direct := decide (4 ≤ sevOf s src) }

/-- Whether comparator `i` is enabled, its chain, limit and count (R368). -/
def cmpCfg (e : List Byte) (i : Nat) : Bool × Nat × F32 × Nat :=
  if i < 12 then (fldB e (8 * i) 6, fld e (8 * i) 0 6, BitVec.ofNat 32 (fld e (8 * i + 4) 0 32), fld e (8 * i + 1) 0 3)
  else (fldB e (84 + i) 6, fld e (84 + i) 0 6, BitVec.ofNat 32 (fld e 100 0 32), fld e 98 0 3)

/-- A comparator's state. -/
def cmpGet (s : State) (i : Nat) : FastCmp :=
  if i < 12 then kget {} s.prot.oc i else if i = 12 then s.prot.dcp else s.prot.dcn

/-- Places a comparator's state. -/
def cmpPut (i : Nat) (c : FastCmp) (s : State) : State :=
  { s with prot :=
    if i < 12 then { s.prot with oc := kset {} s.prot.oc i c }
    else if i = 12 then { s.prot with dcp := c } else { s.prot with dcn := c } }

/-- A fast output of a chain is evaluated by every enabled comparator that names it (R343). -/
def fastProtect (chain : Nat) (v : F32) (q : BitVec 3) (s : State) : State :=
  let e := prt s
  let (s, rs) := forUpto 14 (s, ([] : List Raise)) fun (s, rs) i =>
    let (en, ch, lim, n) := cmpCfg e i
    if en && ch == chain then
      let (c, fire) := cmpStep (s.conv == .deblocked) lim n v q (cmpGet s i)
      (cmpPut i c s, if fire then rs ++ [cmpRaise s i 1] else rs)
    else (s, rs)
  raiseAll rs s

/-- BADMAX consecutive BAD outputs while DEBLOCKED raise the comparator's source with reason NOMEAS, once (R344). -/
def nomeas (i : Nat) (s : State) : State :=
  let e := prt s
  let c := cmpGet s i
  if (cmpCfg e i).1 && s.conv == .deblocked && decide (fld e 98 3 3 ≤ c.bad) && decide (0 < c.bad) && !c.badDone then
    raiseSrc (cmpRaise s i 2) (cmpPut i { c with badDone := true } s)
  else s

/-! Reports (R343, R345). -/

/-- Short-class fault codes (R202). -/
def shortClass (f : Byte) : Bool := decide (1 ≤ f.toNat ∧ f.toNat ≤ 4)

/-- Cell overvoltage over the valid reports of one tick, as pairs of address and VCAP: the address of the highest VCAP
if enough cells lie at or above the limit; of equal ones the lowest address. -/
def cellOv (limit n : Nat) (vs : List (Nat × Nat)) : Option Nat :=
  let above := vs.filter fun v => decide (limit ≤ v.2)
  if limit = 0 || decide (above.length < n) then none
  else (above.foldl (fun (o : Option (Nat × Nat)) v => match o with
    | none => some v
    | some b => if b.2 < v.2 then some v else some b) none).map (·.1)

/-- The raises of CELL_OV and ARM_SHORT at the upstream-window close (R345), and the onsets that remain. `vs` are the
valid NORMAL reports as address and VCAP, `onsets` the arms of this tick's onsets. -/
def reportProtect (vs : List (Nat × Nat)) (onsets : List Nat) (s : State) : State :=
  if s.conv = .dormant then s
  else
    let e := prt s
    let ov : List Raise := match cellOv (fld e 104 0 16) (fld e 106 0 8) vs with
      | some a => [{ src := .cellOv, detail := BitVec.ofNat 16 a }]
      | none => []
    let win := fld e 107 0 4
    let need := fld e 108 0 8
    let (s, rs) := forUpto 12 (s, ov) fun (s, rs) a =>
      let d := kget {} s.arms a
      let new := List.replicate (onsets.filter (· == a)).length s.tick
      let keep := (new ++ d.onsets).filter fun t => decide (tickDiff s.tick t < win)
      let fire := !new.isEmpty && decide (need ≤ keep.length)
      let s := { s with arms := kset {} s.arms a { d with onsets := if fire then [] else keep } }
      (s, if fire then rs ++ [{ src := .armShort, detail := BitVec.ofNat 16 a }] else rs)
    raiseAll rs s

/-! Demands (R342, R352). -/

/-- A demand of input `i` (0 to 7) or connection `i - 8` (8 to 15) is latched: it de-energises the outputs whose MASK
names it, trips the converter if its TRIPCONV says so, and posts SAFETY_DEMAND. A demand that is latched already
changes nothing. -/
def latchDemand (i : Nat) (s : State) : State :=
  let f : Field := if i < 8 then PRT_DEMAND_SI_LAT else PRT_DEMAND_RX_LAT
  let b := if i < 8 then i else i - 8
  if rdBit s f b then s
  else
    let e := prt s
    let s := wrBit f b true s
    let s := forUpto 4 s fun s k => if (fld e (194 + 16 * k) 0 16).testBit i then deEnergise k s else s
    let s := post 0 0x0102 [BitVec.ofNat 8 (i / 8), BitVec.ofNat 8 b] s
    let trip := if i < 8 then fldB e (128 + 8 * b) 2 else fldB e (256 + 32 * b + 12) 1
    if trip then react 5 s else s

/-! Safety inputs (R349 to R352). -/

/-- A safety input. -/
def sin_ (s : State) (n : Nat) : SafeIn := kget {} s.prot.ins n

/-- Places a safety input and shows it in PRT_SISTAT. -/
def setSin (n : Nat) (x : SafeIn) (s : State) : State :=
  let s := { s with prot := { s.prot with ins := kset {} s.prot.ins n x } }
  wrBit PRT_SISTAT_FA n x.filtA (wrBit PRT_SISTAT_FB n x.filtB (wrBit PRT_SISTAT_DISC n x.disc s))

/-- The filtered channels of an input as demand, inconsistency, both channels in demand, and health (R350, R351). -/
def inDemand (antivalent : Bool) (a b : Bool) : Bool := !a || (if antivalent then b else !b)

/-- Unequal for TYPE 0, equal for TYPE 1 (R351). -/
def inInconsistent (antivalent : Bool) (a b : Bool) : Bool := if antivalent then a == b else a != b

/-- Both channels show demand (R351). -/
def inBoth (antivalent : Bool) (a b : Bool) : Bool := !a && (if antivalent then b else !b)

/-- Evaluates an enabled input from its filtered levels (R349 to R352). -/
def evalInput (n : Nat) (s : State) : State :=
  let e := prt s
  let x := sin_ s n
  if !fldB e (128 + 8 * n) 0 then
    wrBit PRT_DEMAND_SI_NOW n false (setSin n { x with incSince := none, incDone := false, disc := false, both := false } s)
  else
    let anti := fldB e (128 + 8 * n) 1
    let inc := inInconsistent anti x.filtA x.filtB
    let both := x.both || inBoth anti x.filtA x.filtB
    let raw := inDemand anti x.filtA x.filtB
    let disc := x.disc && !(both && !raw)
    let x := { x with
      incSince := if inc then (match x.incSince with | some t => some t | none => some s.time) else none
      incDone := inc && x.incDone, disc := disc, both := disc && both }
    let now := raw || disc
    let s := wrBit PRT_DEMAND_SI_NOW n now (setSin n x s)
    if now then latchDemand n s else s

/-- A channel's filtered level takes the level its raw level has held for FILT (R349). -/
def inputFiltered (n : Nat) (chB level : Bool) (s : State) : State :=
  let x := sin_ s n
  let x := if chB then { x with filtB := level } else { x with filtA := level }
  evalInput n (setSin n x s)

/-- An enabled input inconsistent for DISC raises SAFE_IN_DISCREPANCY, once for each time it is, and stays in demand until it has cleared
afresh (R351). -/
def inputDiscrepancy (n : Nat) (s : State) : State :=
  let e := prt s
  let x := sin_ s n
  match x.incSince with
  | none => s
  | some t =>
    if x.incDone || !fldB e (128 + 8 * n) 0 then s
    else
      let s := { s with time := max s.time (t + fld e (130 + 8 * n) 0 16 * 1000000) }
      let s := setSin n { x with incDone := true, disc := true, both := false } s
      fault .safeInDiscrepancy 0 n (latchDemand n (wrBit PRT_DEMAND_SI_NOW n true s))

/-! Safety outputs (R353 to R355). -/

/-- Entry of output `k` into FAULT with cause `why`, beside the raises that led to it. -/
def outFault (k why : Nat) (also : List Raise) (s : State) : State :=
  let from_ := (sout s k).fb
  let s := deEnergise k s
  let entry := !(from_ == .fault)
  let s := setSout k { sout s k with
    fb := .fault, energised := false, since := s.time, badSince := none, pulse := none, tpAt := none } s
  let s := if entry then wr (PRT_SOSTAT_FREASON k) why s else s
  raiseAll (also ++ if entry then
    [{ src := .contactorFb, reason := BitVec.ofNat 8 why, detail := BitVec.ofNat 16 (k + 256 * from_.code) }] else []) s

/-- SAFE_OUT_TEST for output `k`. -/
def outTestRaise (k : Nat) : List Raise := [{ src := .safeOutTest, detail := BitVec.ofNat 16 k }]

/-- A readback of output `k` differs from what it must be (R354): SAFE_OUT_TEST and FAULT; CHA or CHB shows the level read. -/
def readbackFault (k : Nat) (chB level : Bool) (s : State) : State :=
  wrB (if chB then PRT_SOSTAT_CHB k else PRT_SOSTAT_CHA k) level (outFault k 1 (outTestRaise k) s)

/-- Whether channel B is the one tested next, when no pulse runs. -/
def nextPulseB (o : SafeOut) : Bool := o.tpAt.isSome && !o.tpB

/-- Whether the readback follows the next edge of the test (R354): the return of the channel that is low, or the fall of the next one. -/
def pulseFollows (o : SafeOut) (fellA returnedA fellB returnedB : Bool) : Bool :=
  match o.pulse with
  | some b => if b then returnedB else returnedA
  | none => if nextPulseB o then fellB else fellA

/-- The next edge of the test of an ON output (R354): a channel goes low, A first, half a TP_PERIOD after the pulse before it, or returns
TP_WIDTH after its start. `follows`: the readback has followed it within 20 µs. The first pulse comes one TP_PERIOD after the entry into ON
(DESIGN CHOICE, log entry 71). -/
def testPulse (k : Nat) (follows : Bool) (s : State) : State :=
  let o := sout s k
  let e := prt s
  if o.fb == .on && o.energised && fldB e (192 + 16 * k) 1 then
    let late := fun (chB level : Bool) (s : State) =>
      if follows then s else readbackFault k chB level { s with time := s.time + 20000 }
    match o.pulse with
    | some b =>
      let s := { s with time := max s.time (o.tpAt.getD 0 + fld e (196 + 16 * k) 0 16 * 1000) }
      late b false (setSout k { o with pulse := none } s)
    | none =>
      let period := fld e (198 + 16 * k) 0 16 * 1000000
      let b := nextPulseB o
      let s := { s with time := max s.time (match o.tpAt with | none => o.since + period | some t => t + period / 2) }
      late b true (setSout k { o with pulse := some b, tpAt := some s.time, tpB := b } s)
  else s

/-- Outside a pulse, a channel's readback stops equalling its command (R354). -/
def readbackMismatch (k : Nat) (chB : Bool) (s : State) : State :=
  let o := sout s k
  if o.pulse == some chB then s else readbackFault k chB (!o.energised) s

/-- Runs the times of the feedback state machine from the contacts as they stand (R355). -/
def fbTimes (inv : Bool) (t : Nat) (o : SafeOut) : SafeOut :=
  let bad := match o.fb with
    | .off => fbOpen inv o
    | .on => !fbOpen inv o
    | _ => false
  { o with
    badSince := if bad then some (o.badSince.getD t) else none
    disSince := if o.fbA != o.fbB then some (o.disSince.getD t) else none }

/-- The feedback contacts of output `k` change (R355). -/
def feedbackChange (k : Nat) (a b : Bool) (s : State) : State :=
  let inv := fldB (prt s) (192 + 16 * k) 3
  let o := { sout s k with fbA := a, fbB := b }
  if !fbEn s k then setSout k o s
  else
    setSout k (fbTimes inv s.time (fbSettle inv s.time o)) s

/-- The feedback timer of output `k` that ends first: its end and the cause of FAULT it gives (R355, R370). -/
def fbTimer (e : List Byte) (k : Nat) (o : SafeOut) : Option (Nat × Nat) :=
  let ms := fun (b : Nat) => fld e (b + 16 * k) 0 16 * 1000000
  let st := match o.fb with
    | .pickup => [(o.since + ms 200, 2)]
    | .dropout => [(o.since + ms 202, 3)]
    | _ => (o.badSince.map fun t => (t + ms 204, 4)).toList
  let all := if o.fb == .fault then [] else st ++ (o.disSince.map fun t => (t + ms 204, 5)).toList
  all.foldl (fun (m : Option (Nat × Nat)) x => match m with
    | none => some x
    | some y => if x.1 < y.1 then some x else some y) none

/-- The feedback timer that ends first ends: the output enters FAULT (R355). -/
def feedbackTimer (k : Nat) (s : State) : State :=
  if !fbEn s k then s
  else match fbTimer (prt s) k (sout s k) with
    | none => s
    | some (t, why) => outFault k why [] { s with time := max s.time t }

/-- Energises output `k` at a safety reset, from OFF only (R353, R363). -/
def energise (k : Nat) (s : State) : State :=
  let e := prt s
  let o := sout s k
  let mask := fld e (194 + 16 * k) 0 16
  let latches := rd s PRT_DEMAND_SI_LAT + 256 * rd s PRT_DEMAND_RX_LAT
  if fldB e (192 + 16 * k) 0 && o.fb == .off && mask &&& latches == 0 &&
      (s.dev == .setup || s.dev == .run) then
    let o := { o with energised := true, fb := if fbEn s k then .pickup else .on, since := s.time }
    setSout k (if fbEn s k then fbTimes (fldB e (192 + 16 * k) 3) s.time { o with badSince := none } else o) s
  else s

/-! The safety reset (R363). -/

/-- The first condition of a safety reset that fails, as REASON of PRT_RSTSTAT; 0 if none does. An energised output
whose mirror contacts are open is not "feedback open" (DEDUCED, log entry 35). -/
def resetReason (s : State) : Nat :=
  let e := prt s
  if rd s PRT_DEMAND_SI_NOW ≠ 0 then 1
  else if rd s PRT_DEMAND_RX_NOW ≠ 0 then 2
  else if rd s PRT_SISTAT_DISC ≠ 0 then 3
  else if blockLatched s then 4
  else if (List.range 4).any fun k =>
    fbEn s k && !(sout s k).energised && fbOpen (fldB e (192 + 16 * k) 3) (sout s k) then 5
  else 0

/-- What a successful safety reset does to latches and outputs. -/
def resetOutputs (s : State) : State :=
  let e := prt s
  let s := wr PRT_DEMAND_SI_LAT 0 (wr PRT_DEMAND_RX_LAT 0 s)
  forUpto 4 s fun s k =>
    let o := sout s k
    let s := if o.fb == .fault && (!fbEn s k || fbClosed (fldB e (192 + 16 * k) 3) o) then
      setSout k { o with fb := .off, since := s.time, badSince := none } s else s
    energise k s

/-- The evaluation of a completed reset sequence at a mark (R363). The converter's trip reset is the mark's. -/
def safetyResetEval (s : State) : State × Bool :=
  if !s.prot.resetAt then (s, false)
  else
    let s := { s with prot := { s.prot with resetAt := false } }
    let r := resetReason s
    if r = 0 then (wrB PRT_RSTSTAT_DONE true (resetOutputs s), true)
    else (wr PRT_RSTSTAT_REASON r (wrB PRT_RSTSTAT_FAILED true s), false)

/-- A reset sequence left incomplete (R363). -/
def resetIncomplete (s : State) : State :=
  wr PRT_RSTSTAT_REASON 6 (wrB PRT_RSTSTAT_FAILED true { s with prot := { s.prot with key1 := none } })

/-- A write of PRT_RESET (R363): the two keys within 1 ms complete the sequence; the second key without the first in the
last 1 ms leaves it incomplete; any other value breaks it. A STANDBY or RESYNC device ignores the write. -/
def prtReset (v : Word) (s : State) : State :=
  if !(s.dev == .setup || s.dev == .run) || !(s.role == .solo || s.role == .active) then s
  else
    let key := v.toNat % 65536
    if key = 0xA55A then { s with prot := { s.prot with key1 := some s.time } }
    else if key = 0x5AA5 then
      match s.prot.key1 with
      | some t =>
        if s.time ≤ t + 1000000 then { s with prot := { s.prot with key1 := none, resetAt := true } } else resetIncomplete s
      | none => resetIncomplete s
    else { s with prot := { s.prot with key1 := none } }

/-- The second key has not been written within 1 ms (R363). -/
def resetTimeout (s : State) : State :=
  match s.prot.key1 with
  | some t => resetIncomplete { s with time := max s.time (t + 1000000) }
  | none => s

/-! Safe telegrams (R356 to R362). -/

/-- A receive connection. -/
def rxc (s : State) (c : Nat) : RxConn := kget {} s.prot.rx c

/-- Places a receive connection. -/
def setRxc (c : Nat) (x : RxConn) (s : State) : State := { s with prot := { s.prot with rx := kset {} s.prot.rx c x } }

/-- The protection-table entry of receive connection `c` (R368). -/
def rxEntry (e : List Byte) (c : Nat) : List Byte := (e.drop (256 + 32 * c)).take 32

/-- A connection enters or leaves demand (R360). -/
def rxDemand (c : Nat) (on : Bool) (s : State) : State :=
  let s := wrBit PRT_DEMAND_RX_NOW c on s
  if on then latchDemand (8 + c) s else s

/-- A telegram is accepted (R359, R360). -/
def acceptTelegram (c : Nat) (single : Bool) (bytes : List Byte) (s : State) : State :=
  let e := rxEntry (prt s) c
  let permit := fld bytes 18 0 8
  let pmask := fld e 13 0 8
  let s := setRxc c { rxc s c with lastSeq := some (BitVec.ofNat 32 (fld bytes 6 0 32)), lastAcc := s.time, timedOut := false } s
  let s := wr (PRT_RXSTAT_PERMIT c) permit (wrB (PRT_RXSTAT_SINGLE c) single s)
  rxDemand c (decide (permit &&& pmask ≠ pmask)) s

/-- A valid copy of one connection (R359). -/
def validCopy (port : Fin 2) (c : Nat) (bytes : List Byte) (s : State) : State :=
  let x := rxc s c
  let x := if port = 0 then { x with lastCopy0 := some s.time } else { x with lastCopy1 := some s.time }
  let s := setRxc c x s
  let s := wrB (if port = 0 then PRT_RXSTAT_PORT0_UP c else PRT_RXSTAT_PORT1_UP c) true s
  let same := fun (t : TelCopy) => decide (t.port ≠ port) && decide (fld t.bytes 6 0 32 = fld bytes 6 0 32)
  match x.copies.find? same with
  | some t =>
    let s := setRxc c { x with copies := x.copies.filter fun u => !same u } s
    if t.bytes.take 28 = bytes.take 28 then acceptTelegram c false bytes s
    else fault .safeTelegram 1 c (rxDemand c true s)
  | none =>
    let pmask := fld (rxEntry (prt s) c) 13 0 8
    let otherUp := rdB s (if port = 0 then PRT_RXSTAT_PORT1_UP c else PRT_RXSTAT_PORT0_UP c)
    if fld bytes 18 0 8 &&& pmask ≠ pmask then acceptTelegram c false bytes s
    else if !otherUp then acceptTelegram c true bytes s
    else setRxc c { x with copies := x.copies ++ [⟨port, s.time, bytes⟩] } s

/-- The checker of a port takes a copy (R358): the first check that fails counts. -/
def checkCopy (port : Fin 2) (sa : BitVec 48) (bytes : List Byte) (s : State) : State :=
  let e := prt s
  let cs := (List.range 8).filter fun c =>
    let r := rxEntry e c
    fldB r 12 0 && fld bytes 0 0 8 == 0x11 && fld bytes 4 0 16 == fld e 110 0 16 &&
      fld bytes 2 0 16 == fld r 6 0 16 && sa.toNat == fld r 0 0 48
  if bytes.length < 28 || cs.isEmpty then count PRT_ID_CNT_COUNT s
  else
    match cs.find? fun c =>
        crc crcSafe ((rxEntry e c).drop 8 |>.take 4 |>.append (bytes.take 24)) == fld bytes 24 0 32 with
    | none => count PRT_CRC_CNT_COUNT s
    | some c =>
      let x := rxc s c
      let seq := BitVec.ofNat 32 (fld bytes 6 0 32)
      let inSeq := match x.lastSeq with
        | none => true
        | some l => decide (0 ≤ (seq - (l + 1)).toInt)
      let age := (s.time : Int) - fld bytes 10 0 64
      if !inSeq then count PRT_SEQ_CNT_COUNT s
      else if ((fld (rxEntry e c) 16 0 16 * 1000 : Nat) : Int) < age.natAbs then count PRT_AGE_CNT_COUNT s
      else validCopy port c bytes s

/-- A copy of a safe telegram arrives on a port: its checker serves one copy in 2.4 µs with one more waiting, and drops
any other (R361). -/
def telegramCopy (port : Fin 2) (sa : BitVec 48) (bytes : List Byte) (s : State) : State :=
  let busy := kget 0 s.prot.inService port.val
  if s.time + 2400 < busy then count PRT_RXDROP_CNT_COUNT s
  else
    checkCopy port sa bytes
      { s with prot := { s.prot with inService := kset 0 s.prot.inService port.val (max busy s.time + 2400) } }

/-- The oldest waiting copy of a connection has no partner within 100 µs (R359). -/
def partnerTimeout (c : Nat) (s : State) : State :=
  let x := rxc s c
  match x.copies with
  | [] => s
  | t :: r => count PRT_ONECOPY_CNT_COUNT (setRxc c { x with copies := r } { s with time := max s.time (t.at_ + 100000) })

/-- No telegram has been accepted for WDT (R360). -/
def telegramWdt (c : Nat) (s : State) : State :=
  let x := rxc s c
  let e := rxEntry (prt s) c
  if !fldB e 12 0 || x.timedOut then s
  else
    let s := { s with time := max s.time (x.lastAcc + fld e 14 0 16 * 10000) }
    let s := setRxc c { x with timedOut := true, lastSeq := none } s
    fault .safeTelegram 2 c (rxDemand c true s)

/-- No valid copy on a port for LANWAIT: the port is down for the connection (R359). -/
def telegramPortDown (c : Nat) (port : Fin 2) (s : State) : State :=
  let x := rxc s c
  let f := if port = 0 then PRT_RXSTAT_PORT0_UP c else PRT_RXSTAT_PORT1_UP c
  match (if port = 0 then x.lastCopy0 else x.lastCopy1) with
  | none => s
  | some t =>
    if rdB s f then
      wrB f false { s with time := max s.time (t + fld (rxEntry (prt s) c) 18 0 16 * 1000000) }
    else s

/-- The telegram of send connection `c` at the present mark (R356, R362). -/
def telegramBytes (s : State) (c : Nat) : List Byte :=
  let e := prt s
  let x := (e.drop (512 + 32 * c)).take 32
  let permit := (List.range 4).foldl (fun n k => if (sout s k).energised then n + 2 ^ k else n) 0 +
    16 * bitNat (!(s.conv == .tripped)) + 32 * bitNat (s.conv == .deblocked)
  let body := [0x11, 0] ++ leBytes 2 (fld e 110 0 16) ++ leBytes 2 (fld x 6 0 16) ++ leBytes 4 (s.markAt / 1000) ++
    leBytes 8 s.markAt ++ leBytes 1 permit ++ [0, 0, 0, 0, 0]
  body ++ crcBytes crcSafe ((x.drop 8).take 4 ++ body)

/-- The next SeqNr of a pair's redundancy trailers (R518). -/
def nextRct (pair : Nat) (s : State) : BitVec 16 × State :=
  let n := kget 0 s.net.seqNr pair
  (n, { s with net := { s.net with seqNr := kset 0 s.net.seqNr pair (n + 1) } })

/-- The address the ports of a pair send from (R516). -/
def pairMac (s : State) (p : Nat) : Option (BitVec 48) := s.sec.board.bind fun b => b.macs[p / 2]?

/-- Sends a frame of one port alone, a PTP message (R518, R523). -/
def sendPort (p : Nat) (f : NetSend) (s : State) : State :=
  let (n, s) := nextRct (p / 2) s
  emit (.net p (pairMac s p) (some n) f) s

/-- Sends a frame on the ports of a pair that are up, with one SeqNr (R518). -/
def sendPair (pair : Nat) (f : NetSend) (s : State) : State :=
  let (n, s) := nextRct pair s
  [2 * pair, 2 * pair + 1].foldl (fun s p => if rdB s (NET_PORTSTAT_LINK p) then emit (.net p (pairMac s p) (some n) f) s else s) s

/-- An ACTIVE or SOLO device sends each enabled connection's telegram at marks that are multiples of its PERIOD
(R362). -/
def sendTelegrams (s : State) : State :=
  if !(s.role == .solo || s.role == .active) then s
  else forUpto 8 s fun s c =>
    let e := prt s
    let period := fld e (512 + 32 * c + 14) 0 16
    if fldB e (512 + 32 * c + 12) 0 && s.tick.toNat % period == 0 then
      let (n, s) := nextRct 0 s
      emit (.telegram c n (telegramBytes s c)) s
    else s

/-! A commit of the protection table (R349, R353, R358). -/

/-- What a commit changes beside the table: `old` is the table before it. Inputs are evaluated from their filtered
levels, outputs whose ENA is 0 or whose MASK names a latched demand de-energise, a latched demand whose TRIPCONV it sets trips the
converter (R352), feedback times run from the commit that enables them, and a connection
enabled by it starts afresh. -/
def protCommit (old : List Byte) (s : State) : State :=
  let e := prt s
  if e = old then s
  else
    let s := forUpto 8 s fun s n => evalInput n s
    let latches := rd s PRT_DEMAND_SI_LAT + 256 * rd s PRT_DEMAND_RX_LAT
    let trips := fun (e : List Byte) (i : Nat) => if i < 8 then fldB e (128 + 8 * i) 2 else fldB e (256 + 32 * (i - 8) + 12) 1
    let s := if (List.range 16).any fun i => latches.testBit i && trips e i && !trips old i then react 5 s else s
    let s := forUpto 4 s fun s k =>
      let b := 192 + 16 * k
      let s := if fldB e b 0 && fld e (b + 2) 0 16 &&& latches == 0 then s else deEnergise k s
      let o := sout s k
      let turned := fldB e b 2 && (!fldB old b 2 || fldB e b 3 != fldB old b 3)
      let o := if turned then { o with badSince := none, disSince := none } else o
      let o := if fldB e b 2 then fbTimes (fldB e b 3) s.time o
        else { o with
          badSince := none, disSince := none
          fb := if o.fb == .fault then .fault else if o.energised then .on else .off }
      setSout k o s
    forUpto 8 s fun s c =>
      let on := fldB (rxEntry e c) 12 0
      if on && !fldB (rxEntry old c) 12 0 then setRxc c { lastAcc := s.time } s
      else if on then s
      else wrBit PRT_DEMAND_RX_NOW c false (setRxc c {} s)

/-! The commands of chapter 12. -/

/-- NOMEAS (R344). -/
def execNomeas (i : Fin 14) (s : State) : Host.Outcome State Fault Refusal := cmd (nomeas i.val) s

/-- SAFETY_INPUT_FILTERED (R349). -/
def execSafetyInputFiltered (n : Fin 8) (chB level : Bool) (s : State) : Host.Outcome State Fault Refusal :=
  cmd (inputFiltered n.val chB level) s

/-- SAFE_IN_DISCREPANCY (R351). -/
def execSafeInDiscrepancy (n : Fin 8) (s : State) : Host.Outcome State Fault Refusal := cmd (inputDiscrepancy n.val) s

/-- TEST_PULSE (R354). -/
def execTestPulse (k : Fin 4) (fellA returnedA fellB returnedB : Bool) (s : State) : Host.Outcome State Fault Refusal :=
  cmd (testPulse k.val (pulseFollows (sout s k.val) fellA returnedA fellB returnedB)) s

/-- FEEDBACK_CHANGE (R355). -/
def execFeedbackChange (k : Fin 4) (a b : Bool) (s : State) : Host.Outcome State Fault Refusal :=
  cmd (feedbackChange k.val a b) s

/-- FEEDBACK_TIMER_EXPIRY (R355). -/
def execFeedbackTimerExpiry (k : Fin 4) (s : State) : Host.Outcome State Fault Refusal := cmd (feedbackTimer k.val) s

/-- SAFE_OUT_READBACK_MISMATCH (R354). -/
def execSafeOutReadbackMismatch (k : Fin 4) (chB : Bool) (s : State) : Host.Outcome State Fault Refusal :=
  cmd (readbackMismatch k.val chB) s

/-- SAFETY_RESET_TIMEOUT (R363). -/
def execSafetyResetTimeout (s : State) : Host.Outcome State Fault Refusal := cmd resetTimeout s

/-- PRT_RESET_WRITE (R363). -/
def execPrtResetWrite (v : Word) (s : State) : Host.Outcome State Fault Refusal := cmd (regWrite 0x48004 v (prtReset v)) s

/-- TELEGRAM_PARTNER_TIMEOUT (R359). -/
def execTelegramPartnerTimeout (c : Fin 8) (s : State) : Host.Outcome State Fault Refusal := cmd (partnerTimeout c.val) s

/-- TELEGRAM_WDT_TIMEOUT (R360). -/
def execTelegramWdtTimeout (c : Fin 8) (s : State) : Host.Outcome State Fault Refusal := cmd (telegramWdt c.val) s

/-- TELEGRAM_PORT_DOWN (R359). -/
def execTelegramPortDown (c : Fin 8) (port : Fin 2) (s : State) : Host.Outcome State Fault Refusal :=
  cmd (telegramPortDown c.val port) s

end Sys2Proof.Machine
end

