-- ==== Sys2Proof/Machine/Lane.lean ====
section
/-! DEFINITION. Star lanes, ranging, discovery and the mailbox (chapters 04 and 05): lane errors and loss, cell echo, delays and
tracking, mailbox operations and their replies, firmware distribution, dark lanes, and the report bursts. -/

namespace Sys2Proof.Machine

/-! Lanes and cells. -/

/-- A star lane whose LNK_CTRL.EN is 1 (R109). -/
def laneEn (s : State) (l : Nat) : Bool := rdB s (LNK_CTRL_EN l)

/-- Star lane `l` runs: it was lit at the last lane start, with EN at 1 then (R109, R129). -/
def laneRuns (s : State) (l : Nat) : Bool := (lane s l).lit

/-- The star lanes that run change between the full-rate and the Watch peaking (R131). -/
def relineLanes (s : State) : State := forUpto 64 s fun s l => if laneRuns s l then setLine l s else s

/-- The lanes with EN at 1 are lit with their line settings (R109, R121, R129). A lane in a near-end loop does not drive its line. -/
def lightLanes (s : State) : State :=
  forUpto 64 s fun s l =>
    if laneEn s l then
      setLine l (wrB (LNK_STATUS_UP l) (rd s (LNK_CTRL_LOOP l) == 0) (modLane l (fun x => { x with lit := true }) s))
    else s

/-- A cell that has been ranged since its values were last voided (R17). -/
def Cell.ranged (c : Cell) : Bool := c.ent.avail != .empty && c.ent.avail != .unranged && !c.ent.rvoid

/-- An address at which ranging is wanted: no cell, or one that is UNRANGED or whose RVOID is 1 (R160). -/
def Cell.free (c : Cell) : Bool := !c.ranged

/-- Addresses of lane `l` that exist in the lane mode. -/
def laneAddrs (s : State) (l : Nat) : List Nat := (List.range (slotsOf (liveMode s))).map fun k => l * 128 + k

/-- The ranging record (R159). -/
def rangingRec (s : State) : List Byte := tab s 0x03 0

/-- CONFIRM of the ranging record. -/
def confirmNeed (s : State) : Nat := fld (rangingRec s) 3 0 8

/-- An event about a cell (R505): `k` is its place among 0x0301 to 0x0308. -/
def cellEvent (k : Nat) (addr : Nat) (l slot : Nat) (serial : BitVec 64) (s : State) : State :=
  post 2 (0x300 + k) (leBytes 2 addr ++ leBytes 1 l ++ leBytes 1 slot ++ leBytes 8 serial.toNat) s

/-- A change of AVAIL falls due at the next mark (R25). -/
def dueAvail (a : Nat) (t : Avail) (s : State) : State :=
  { s with avails := s.avails ++ [{ addr := BitVec.ofNat 13 a, target := t }] }

/-- The cells of the lanes that a lane start leaves dark are UNRANGED (R109). FAULTED, BYPASSED and OUT_OF_SERVICE cells keep their state, as in
R17 (DESIGN CHOICE, log entry 68). -/
def darkUnranged (s : State) : State :=
  s.cells.foldl (fun s c =>
    if !laneEn s (c.1 / 128) && (c.2.ent.avail == .available || c.2.ent.avail == .refreshing || c.2.ent.avail == .missing) then
      dueAvail c.1 .unranged s
    else s) s

/-! Delays (R153, R155, R603). Exact delays count 2^-13 of a full-rate symbol. -/

/-- Transmitter and receiver module delays of a lane from the board descriptor, in 1/16 symbol. -/
def moduleDelays (s : State) (l : Nat) : Nat × Nat :=
  match s.sec.board with
  | some b => (b.modDly.getD (2 * l) 0, b.modDly.getD (2 * l + 1) 0)
  | none => (0, 0)

/-- Splits a round trip in 1/16 symbol into the exact downstream and upstream delays (R153). -/
def splitRtt (s : State) (l : Nat) (rtt : Int) : Int × Int :=
  let (tx, rx) := moduleDelays s l
  let half := (rtt - tx - rx) * 256
  (half + tx * 512, half + rx * 512)

/-- DS_DELAY in 1/16 symbol. -/
def dsDelay (d : Int) : Int := roundAway ((d : Rat) / 512)

/-- TXO_FULL before the floor at 0 (R155). -/
def txoFull (s : State) (slot : Nat) (u : Int) : Int :=
  roundAway (((winOpen (liveMode s) false + 78 * slot : Nat) : Rat) - (u : Rat) / 8192)

/-- TXO_WATCH (R155). -/
def txoWatch (slot : Nat) (u : Int) : Int := roundAway (((512 + 78 * slot : Nat) : Rat) - (u : Rat) / 40960)

/-- A delay as a 16-bit field. -/
def delay16 (v : Int) : Nat := (max 0 (min 65535 v)).toNat

/-- The ranging values of a cell as mailbox bytes: TXO_FULL, TXO_WATCH, DS_DELAY (R165). A TXO_FULL below 0 is sent as
0 (R158). -/
def rangeBytes (s : State) (slot : Nat) (c : Cell) : List Byte :=
  leBytes 2 (delay16 (txoFull s slot c.dyn.usExact)) ++ leBytes 2 (delay16 (txoWatch slot c.dyn.usExact)) ++
  leBytes 2 (delay16 (dsDelay c.dyn.dsExact))

/-- Writes the values to the cell table as they are sent (R157), with ETICK as RANGE_TICK. -/
def storeRange (s : State) (slot : Nat) (e : Tick) (c : Cell) : Cell :=
  { c with ent := { c.ent with
      txOffset := BitVec.ofNat 16 (delay16 (txoFull s slot c.dyn.usExact))
      dsDelay := BitVec.ofNat 16 (delay16 (dsDelay c.dyn.dsExact))
      rangeTick := e } }

/-! The mailbox (R165 to R168). -/

/-- Queues an operation on a lane. Mailbox content is that of the device that commands the cells (R603): a STANDBY or RESYNC
device queues none of its own. -/
def pushOp (l : Nat) (o : MbxOp) (s : State) : State :=
  if commands s then modLane l (fun x => { x with waiting := x.waiting ++ [o] }) s else s

/-- Priority of a waiting operation (R168), the lowest first. IDENT_READ of R555 goes with the cell-service commands. -/
def opClass (o : MbxOp) : Nat :=
  match o.owner with
  | .assign _ => 2
  | .park => 2
  | .identPark _ => 2
  | .tracking _ => 3
  | .echo => 4
  | .host _ => 5
  | .identRead _ _ => 5
  | .firmware _ => 6

/-- Whether a waiting operation may be sent now: no reply is outstanding from its cell (R167), and an ASSIGN still fits its
cell-table entry. -/
def opReady (s : State) (x : LaneSt) (o : MbxOp) : Bool :=
  (o.slot == 0xFF || !(x.out.any fun p => p.op.slot == o.slot)) &&
  (match o.owner with
  | .assign a =>
    let c := cell s a.toNat
    !c.ranged && c.ent.avail != .empty && leBytes 8 c.ent.serial.toNat == o.data.take 8
  | _ => true)

/-- Index of the operation to send: the first of the lowest class. -/
def pickOp (s : State) (x : LaneSt) : Option Nat :=
  ((List.range 7).filterMap fun k => x.waiting.findIdx? fun o => opClass o == k && opReady s x o).head?

/-- The apply tick of ASSIGN and RANGE in the frame of window `e` (R157). -/
def applyTick (e : Tick) : Tick := e + 8

/-- Effects of sending an operation in the frame of window `w` (R143, R157, R158, R164, R167); `e` is the ETICK of that
frame, which differs from `w` only where the frame's window begins a new numbering. -/
def sendRanging (l : Nat) (w e : Tick) (o : MbxOp) (s : State) : MbxOp × State :=
  match o.owner with
  | .assign a =>
    let c := cell s a.toNat
    let o := { o with arg := applyTick e, data := leBytes 8 c.ent.serial.toNat ++ leBytes 1 (slotOf a) ++ rangeBytes s (slotOf a) c }
    let s := modCell a.toNat (fun c =>
      let c := storeRange s (slotOf a) e c
      { c with dyn := { c.dyn with confirm := some { apply := applyTick w } } }) s
    (o, modLane l (fun x => { x with planVer := x.planVer + 1 }) s)
  | .tracking a =>
    let c := cell s a.toNat
    let o := { o with arg := applyTick e, data := rangeBytes s (slotOf a) c }
    (o, modCell a.toNat (fun c =>
      let c := storeRange s (slotOf a) e c
      { c with dyn := { c.dyn with holdTill := some (applyTick w), acc := 0, cnt := 0 } }) s)
  | .identPark a => (o, modCell a.toNat (fun c => { c with dyn := { c.dyn with parked := some w } }) s)
  | _ =>
    -- an FW_ACTIVATE sent again takes a new apply tick unless its own still lies beyond it (DESIGN CHOICE, log entry 68)
    (if o.op = 0x0E ∧ 0 < o.resends ∧ tickGe (applyTick e) o.arg then { o with arg := applyTick e } else o, s)

/-- Takes the operation to send on a lane in the frame of window `w`, whose ETICK is `e`, with its mailbox (R141, R167,
R168). -/
def takeOp (l : Nat) (w e : Tick) (s : State) : Option (MbxFrame × MbxOp) × State :=
  let x := lane s l
  match pickOp s x with
  | none => (none, s)
  | some i =>
    match x.waiting[i]? with
    | none => (none, s)
    | some o =>
      let s := modLane l (fun x => { x with waiting := x.waiting.eraseIdx i }) s
      let (o, s) := sendRanging l w e o s
      let tag := (lane s l).nextTag
      let uni := o.slot != 0xFF
      let s := modLane l (fun x => { x with
        nextTag := x.nextTag + 1
        out := if uni then x.out ++ [{ op := o, tag := tag, etick := w, apply := applyTick w }] else x.out }) s
      (some ({ slot := o.slot, op := o.op, tag := tag, arg := o.arg, data := o.data }, o), s)

/-- The operations have left in their frames: a broadcast of the host completes once sent (R496). -/
def opsSent (ops : List (Nat × MbxOp)) (s : State) : State :=
  ops.foldl (fun s (l, o) => match o.owner with
    | .host k => flowReleased (32 + l / 16) (if o.slot != 0xFF then s else finish k .ok [] none s)
    | _ => s) s

/-- DISC_RTT for window `e` on a lane, in symbols of the rate (R161). -/
def discRtt (s : State) (l : Nat) (watch : Bool) : Nat × Bool :=
  let k : Rat := if watch then 5 else 1
  let cs := ((laneAddrs s l).map (cell s)).filter Cell.ranged
  if !cs.isEmpty then
    let sum : Int := (cs.map fun c => c.dyn.dsExact + c.dyn.usExact).sum
    (delay16 (roundAway ((sum : Rat) / (8192 * cs.length * k))), false)
  else match (lane s l).discRtt with
    | some r => (delay16 (roundAway ((r : Rat) / (16 * k))), false)
    | none =>
      let (tx, rx) := moduleDelays s l
      let base := roundAway (((tx + rx : Nat) : Rat) / (16 * k))
      let mf := rd s TCK_MAXFLIGHT_MAXFLIGHT
      let span := 2 * (if watch then (mf + 4) / 5 else mf)
      (delay16 (base + 4 * ((lane s l).sweep % (span / 4 + 1) : Nat)), true)

/-- The mailbox of a discovery frame for window `e` (R160, R161, R168). -/
def discMailbox (l : Nat) (e : Tick) (free : Nat) (watch : Bool) (s : State) : MbxFrame × State :=
  let (r, swept) := discRtt s l watch
  let tag := (lane s l).nextTag
  let s := modLane l (fun x => { x with
    nextTag := x.nextTag + 1, sweep := if swept then x.sweep + 1 else x.sweep
    discPrev := x.discMap, discMap := some (e, free, (r : Int) * 16 * (if watch then 5 else 1)) }) s
  ({ slot := 0xFF, op := 5, tag := tag, data := leBytes 16 free ++ leBytes 2 r }, s)

/-- FREE bits of a lane by the cell table given (R160, R161). -/
def freeBits (s : State) (cells : KeyList Cell) (l : Nat) : Nat :=
  (List.range (slotsOf (liveMode s))).foldl (fun b k => if (cellIn cells (l * 128 + k)).free then b + 2 ^ k else b) 0

/-- Tick `e` is a discovery tick in converter state `c`, by the ranging record of the tables given (R57, R159, R160). -/
def discTick (tabs : KeyList (List Byte)) (c : ConvState) (e : Tick) : Bool :=
  let r := tabIn tabs 0x03 0
  match c with
  | .deblocked => fldB r 0 1 && e.toNat % 4096 == 0
  | .dormant => false
  | _ => fldB r 0 0 && e.toNat % 2 ^ fld r 1 0 4 == 0

/-- The mailbox operations a lost window took go back to the front of their lanes, and its discovery mailboxes are as if never
made (R53): they have not been sent. -/
def requeue (ops : List (Nat × MbxOp)) (disc : List Nat) (e : Tick) (watch : Bool) (s : State) : State :=
  let s := disc.foldl (fun s l => modLane l (fun x => { x with
    nextTag := x.nextTag - 1, sweep := if (discRtt s l watch).2 then x.sweep - 1 else x.sweep
    discMap := x.discPrev, discPrev := none }) s) s
  ops.foldr (fun (l, o) s => modLane l (fun x => { x with
    waiting := o :: x.waiting, nextTag := x.nextTag - 1, out := x.out.filter fun p => p.etick != e
    planVer := if o.op == 1 then x.planVer - 1 else x.planVer }) s) s

/-! Replies (R167, R496, R555, R169). -/

/-- The PARK of R163, R164 and R555. -/
def parkOp (serial : List Byte) (arg : Word) (flag : Bool) : MbxOp :=
  { op := 3, arg := arg, data := padTo 8 serial ++ leBytes 1 (bitNat flag), owner := .park }

/-- Records the result of a firmware target (R496). -/
def fwResult (a : CellAddr) (r : Byte) (s : State) : State :=
  { s with fwJob := s.fwJob.map fun j => { j with results := (a, r) :: j.results.filter fun p => p.1 != a } }

/-- Address of a slot of a lane. -/
def slotAddr (l : Nat) (slot : Byte) : CellAddr := addrOf l slot.toNat

/-- A unicast operation has failed for good (R167): NO_REPLY for a command, PARK for IDENT_READ (R555), and for a RANGE of
tracking nothing (R603). -/
def failOp (l : Nat) (o : MbxOp) (s : State) : State :=
  match o.owner with
  | .host k => finish k .noReply (leBytes 2 (slotAddr l o.slot).toNat) none s
  | .firmware _ => fwResult (slotAddr l o.slot) 4 s
  | .identRead a _ =>
    let c := cell s a.toNat
    if c.dyn.confirm.isSome then s
    else pushOp l { parkOp (leBytes 8 c.ent.serial.toNat) 0 true with owner := .identPark a } s
  | _ => s

/-- A missing, invalid or wrong reply (R167): resent up to 3 times with a new tag. -/
def resendOp (l : Nat) (o : MbxOp) (s : State) : State :=
  if o.resends < 3 then modLane l (fun x => { x with waiting := { o with resends := o.resends + 1 } :: x.waiting }) s
  else failOp l o s

/-- A firmware query's reply (R169): the number of blocks missing, then the lowest of them in two halves. -/
def fwReply (l : Nat) (o : MbxOp) (low : Nat) (rcode : Nat) (rdata : Nat) (s : State) : State :=
  let a := slotAddr l o.slot
  let query := fun (arg : Word) (low : Nat) => pushOp l { op := 0x0D, slot := o.slot, arg := arg, owner := .firmware low } s
  if o.op != 0x0D then s
  else if rcode = 6 then fwResult a 3 s
  else if rcode ≠ 1 then fwResult a 2 s
  else if o.arg = 0 then (if rdata = 0 then fwResult a 1 s else query 1 0)
  else if o.arg = 1 then query 2 rdata
  else { s with fwJob := s.fwJob.map fun j => { j with missing := j.missing ++ [(a, low + 65536 * rdata)] } }

/-- A final reply has arrived (R167). -/
def doneOp (l : Nat) (o : MbxOp) (rcode rdata : Nat) (s : State) : State :=
  match o.owner with
  | .host k => finish k .ok (leBytes 1 rcode ++ [0] ++ leBytes 2 rdata) none s
  | .firmware low => fwReply l o low rcode rdata s
  | .identRead a got =>
    if rcode ≠ 1 then failOp l o s
    else
      let got := got ++ leBytes 2 rdata
      if got.length < 8 then
        pushOp l { op := 8, slot := o.slot, arg := BitVec.ofNat 32 (got.length / 2), owner := .identRead a got } s
      else if (cell s a.toNat).dyn.confirm.isSome then s
      else pushOp l { parkOp got 0 true with owner := .identPark a } s
  | _ => s

/-- The reply fields of a valid NORMAL report of tick `n` (R166, R167). BUSY keeps the operation waiting. -/
def takeReply (l slot : Nat) (n : Tick) (p : List Byte) (s : State) : State :=
  let rtag := p.getD 18 0
  let rcode := fld p 19 0 8
  match (lane s l).out.find? fun o => o.op.slot.toNat == slot && tickGe n (o.etick + 1) with
  | none => s
  | some o =>
    if rtag ≠ o.tag ∨ rcode = 0 ∨ 7 ≤ rcode then s
    else if rcode = 2 then
      modLane l (fun x => { x with out := x.out.map fun q =>
        if q = o then { q with busy := some (q.busy.getD n) } else q }) s
    else doneOp l o.op rcode (fld p 20 0 16) (modLane l (fun x => { x with out := x.out.filter fun q => q != o }) s)

/-- Replies due in tick `n` that have not come (R167). -/
def missedReplies (l : Nat) (n : Tick) (s : State) : State :=
  let late := (lane s l).out.filter fun o => o.busy.isNone && tickGe n (o.etick + 1)
  let s := modLane l (fun x => { x with out := x.out.filter fun o => !(o.busy.isNone && tickGe n (o.etick + 1)) }) s
  late.foldr (fun o s => resendOp l o.op s) s

/-- A cell that answered BUSY gives no final reply within 2,048 ticks (R167). -/
def busyTimeout (l : Nat) (tag : Byte) (s : State) : State :=
  match (lane s l).out.find? fun o => o.tag == tag with
  | none => s
  | some o =>
    match o.busy with
    | none => s
    | some t =>
      if tickDiff s.tick t < 2048 then s
      else resendOp l o.op (modLane l (fun x => { x with out := x.out.filter fun q => q != o }) s)

/-! Cell echo (R123 to R125). -/

/-- A write to LNK_ECHO (R123): GO starts an echo or is refused; without GO the fields are written. -/
def echoWrite (l : Nat) (v : Word) (s : State) : State :=
  let slot := v.toNat % 128
  let ticks := v.toNat / 256 % 65536
  if v.getLsbD 7 then
    let c := cell s (l * 128 + slot)
    let okConv := s.conv == .watch || s.conv == .ready || s.conv == .blocked
    if (lane s l).echo.isSome || !okConv || c.ent.avail == .empty || c.ent.avail == .unranged || ticks == 0 then
      wrB (LNK_STATUS_WRERR l) true s
    else
      let s := wr (LNK_ECHO_SLOT l) slot (wr (LNK_ECHO_TICKS l) ticks (wrB (LNK_ECHO_GO l) true s))
      let s := wrB (LNK_STATUS_ECHO_BUSY l) true (modLane l (fun x => { x with echo := some { slot := slot, left := ticks } }) s)
      pushOp l { op := 6, slot := BitVec.ofNat 8 slot, arg := BitVec.ofNat 32 ticks, owner := .echo } s
  else if ticks = 0 then wrB (LNK_STATUS_WRERR l) true s
  else wr (LNK_ECHO_SLOT l) slot (wr (LNK_ECHO_TICKS l) ticks s)

/-- Clears the marks of a running echo. -/
def echoStop (l : Nat) (s : State) : State :=
  wrB (LNK_STATUS_ECHO_BUSY l) false (wrB (LNK_ECHO_GO l) false (modLane l (fun x => { x with echo := none }) s))

/-- A cell echo ends after its ticks, or when the converter has left WATCH, READY and BLOCKED (R125). -/
def echoEnd (l : Nat) (s : State) : State :=
  match (lane s l).echo with
  | none => s
  | some e =>
    if e.left = 0 || !(s.conv == .watch || s.conv == .ready || s.conv == .blocked) then
      pushOp l { op := 7, slot := BitVec.ofNat 8 e.slot, owner := .echo } (echoStop l s)
    else s

/-- Bits in which an echoed header differs from the one sent (R124). -/
def bitDiff (a b : List Byte) : Nat :=
  ((a.zip b).map fun (x, y) => ((List.range 8).filter fun i => x.getLsbD i != y.getLsbD i).length).sum

/-- Compares an echo with the header sent (R124): the one whose ETICK it shows, else that of the report's tick. -/
def echoCompare (l : Nat) (n : Tick) (p : List Byte) (s : State) : State :=
  let got := (p.drop 2).take 20
  let shown := BitVec.ofNat 32 (fld got 4 0 32)
  let hs := (lane s l).headers
  match (hs.find? fun h => h.1 == shown).or (hs.find? fun h => h.1 == n) with
  | none => s
  | some h => countN (LNK_ECHO_ERR_COUNT l) (bitDiff got (h.2.take 20)) s

/-! Lane errors and loss (R126 to R128). -/

/-- Shows whether any lane's LANE_LOS condition holds. -/
def losActive (s : State) : State := setActive .laneLos ((List.range 64).any fun l => rdB s (LNK_STATUS_LOS l)) s

/-- The LANE_LOS condition of a lane begins (R127). -/
def losBegin (l : Nat) (s : State) : State :=
  if rdB s (LNK_STATUS_LOS l) then s else wrB (LNK_STATUS_LOS l) true (count (LNK_LOS_CNT_COUNT l) s)

/-- No burst decoded for LOS_TICKS ticks (R127). -/
def laneLos (l : Nat) (s : State) : State :=
  if !s.lanesOn || !laneRuns s l || !laneEn s l || rdB s (LNK_STATUS_LOS l) || decide ((lane s l).quiet < rd s LNK_GCFG_LOS_TICKS) then s
  else losActive (fault .laneLos 1 l (losBegin l s))

/-- Errors of a lane reach CODE_THR in one tick (R128): star lanes 0 to 63, Dovetail lanes 64 to 67, referee lane 68. -/
def laneCode (l : Nat) (s : State) : State :=
  let x := lane s l
  if x.codeDone || decide (x.codeTick < rd s LNK_GCFG_CODE_THR) then s
  else fault .laneCode 0 l (modLane l (fun x => { x with codeDone := true }) s)

/-- Counts the invalid groups and disparity errors of a lane (R126). -/
def countErrors (l c d : Nat) (s : State) : State :=
  countN (LNK_CODE_CNT_COUNT l) c (countN (LNK_DISP_CNT_COUNT l) d (modLane l (fun x => { x with codeTick := x.codeTick + c + d }) s))

/-! The line at the receivers (R105, R119, R122). -/

/-- Bits at the receiver behind the polarity setting. -/
def lineBits (s : State) (l : Nat) (bits : List Bool) : List Bool :=
  if (lineSetting s l).any (·.rxInv) then bits.map (!·) else bits

/-- Bits on a lane whose receiver checks a test pattern: the checker counts errors (R122). -/
def checkPattern (l : Nat) (bits : List Bool) (s : State) : State :=
  let (n, h) := prbsCheck (rd s (LNK_CTRL_PATTERN l) == 2) (lane s l).prbs bits
  countN (LNK_PRBS_ERR_COUNT l) n (modLane l (fun x => { x with prbs := h }) s)

/-- Groups a continuous receiver takes, and what remains of the bits; without lock it aligns on the first comma (R105). -/
def alignPoint (s : State) (l : Nat) (bits : List Bool) : Bool × List Bool :=
  if rdB s (LNK_STATUS_RXLOCK l) then ((lane s l).rd, (lane s l).tail ++ bits)
  else
    let b := toComma bits
    (bitsNat (b.take 7) == 0b1100000, b)

/-- Bits on a Dovetail or the referee lane (R102, R105, R122, R126): what its receiver makes of the groups, with errors counted. A lane in a
near-end loop takes nothing from its line, one in retransmit sends back what comes. -/
def pointRx (l : Nat) (bits : List Bool) (s : State) : List (Nat × Rx) × State :=
  let loop := rd s (LNK_CTRL_LOOP l)
  if !rdB s (LNK_STATUS_UP l) || loop == 1 || loop == 2 then ([], s)
  else if loop = 3 then ([], emit (.echoed l bits) s)
  else if rd s (LNK_CTRL_PATTERN l) ≠ 0 then ([], checkPattern l (lineBits s l bits) s)
  else
    let (rd0, stream) := alignPoint s l (lineBits s l bits)
    let (gs, tail) := groupsOf stream
    if gs.isEmpty then ([], if rdB s (LNK_STATUS_RXLOCK l) then modLane l (fun x => { x with tail := tail }) s else s)
    else
      let rx := rxStream rd0 gs
      let (c, d) := rxErrors false rx
      let s := modLane l (fun x => { x with tail := tail, rd := gs.foldl (fun r g => afterGroup g r) rd0 }) s
      (gs.zip rx, countErrors l c d (wrB (LNK_STATUS_RXLOCK l) true s))

/-- The bytes between the K27.7 and the K29.7 in a stream (R377, R379, R380). -/
def framed (rx : List (Nat × Rx)) : Option (List Byte) :=
  let b := (rx.dropWhile fun x => x.2.sym != some (.k K27_7)).drop 1
  if b.any fun x => x.2.sym == some (.k K29_7) then some ((b.takeWhile fun x => x.2.sym != some (.k K29_7)).map rxByte) else none

/-! Dark lanes (R130, R167). -/

/-- The operations that wait on a lane or await replies end without them. -/
def dropOps (l : Nat) (s : State) : State :=
  let x := lane s l
  let ops := x.out.map (·.op) ++ x.waiting
  ops.foldl (fun s o => match o.owner with
    | .host k => finish k .noReply (if o.slot = 0xFF then leBytes 2 (0xFF00 + l) else leBytes 2 (slotAddr l o.slot).toNat) none s
    | .firmware _ => if o.slot = 0xFF then s else fwResult (slotAddr l o.slot) 4 s
    | _ => s) (modLane l (fun x => { x with waiting := [], out := [] }) s)

/-- What waits on a lane or awaits a reply ends when the lane goes dark. -/
def darkLane (l : Nat) (s : State) : State :=
  let s := modLane l (fun x => { x with lit := false, discMap := none, discPrev := none, headers := [], decoded := false }) (dropOps l s)
  let s := if (lane s l).echo.isSome then echoStop l s else s
  wrB (LNK_STATUS_UP l) false (wrB (LNK_STATUS_RXLOCK l) false s)

/-- A lane PLL loses lock (R71): its 16 transmitters stop, and LANE_LOS is raised for each of its lanes. -/
def lanePllUnlock (k : Nat) (s : State) : State :=
  if !rdBit s CLK_STATUS_LPLL_LOCK k then s
  else
    let s := wrBit CLK_STATUS_LPLL_LOCK k false s
    let ls := (List.range 16).map (16 * k + ·)
    let s := ls.foldl (fun s l => losBegin l (darkLane l s)) s
    losActive (raiseAll (ls.map fun l => { src := .laneLos, reason := 2, detail := BitVec.ofNat 16 l }) (interlock s))

/-- Bytes of a firmware command's result (R496). -/
def fwResultBytes (j : FwJob) : List Byte :=
  (List.range j.resLen).map fun a => match j.results.find? fun p => p.1.toNat == a with
    | some p => p.2
    | none => 0

/-- A firmware distribution ends: OK, or FAILED with the number of cells that failed (R169, R496, R503). -/
def fwFinish (j : FwJob) (s : State) : State :=
  let bad := (j.results.filter fun p => p.2 != 1).length
  let res := some (fwResultBytes j)
  finish j.order (if bad = 0 then .ok else .failed) (if bad = 0 then [] else leBytes 4 bad) res { s with fwJob := none }

/-- A firmware distribution ends with NO_REPLY for the cells not yet done. -/
def fwStop (s : State) : State :=
  match s.fwJob with
  | none => s
  | some j =>
    let j := j.lanes.foldl (fun j l => (laneAddrs s l).foldl (fun (j : FwJob) a =>
      if (cell s a).ranged && !(j.results.any fun p => p.1.toNat == a) then
        { j with results := (BitVec.ofNat 13 a, 4) :: j.results } else j) j) j
    fwFinish j s

/-- Every star lane goes dark. -/
def darkLanes (s : State) : State :=
  let s := forUpto 64 s fun s l => darkLane l s
  let s := { s with
    lanesOn := false, litAt := none
    cells := s.cells.foldl (fun (l : KeyList Cell) (c : Nat × Cell) => if c.2.dyn.confirm.isSome then
      kmod {} l c.1 fun x => { x with dyn := { x.dyn with confirm := none } } else l) s.cells }
  interlock (fwStop s)

/-- 2 µs after the loss of lock the lanes stop (R84 steps 2 to 4, R137): the clocks go to the bypass clock, the converter
becomes BLOCKED without a mark, a pending rate change or lane start ends, and phases and frames are dropped. -/
def lanesStopOnUnlock (s : State) : State :=
  match s.clk.stopAt with
  | none => s
  | some t =>
    let s := { s with time := max s.time t, clk := { s.clk with stopAt := none } }
    let s := portsDown (darkLanes (cancelRate s))
    let s := { s with run := none, waitIn := [], ready := [], numChange := none, sentWin := none }
    let s := wrB CLK_STATUS_BYPASS true (wrB TIM_STATUS_COARSE true s)
    let s := stopPoints s
    let s := if s.conv == .watch || s.conv == .ready || s.conv == .deblocked then
        let s := setConv .blocked s
        if s.fcl.toBlock && !s.fcl.toTrip then clearForces s else s
      else s
    interlock s

/-! Ranging of single cells (R158, R164). -/

/-- The measured arrivals of a ranged cell average to a change (R158, R603); a count above a TRACK_LOG lowered since is averaged as
it stands (DESIGN CHOICE, log entry 61). -/
def trackingUpdate (a : Nat) (s : State) : State :=
  let c := cell s a
  let need := 2 ^ (fld (rangingRec s) 2 0 3 + 3)
  if !c.ranged || decide (c.dyn.cnt < need) then s
  else
    -- e in 2^-13 symbol: cnt = 2^k divides 512 × 16
    let e := c.dyn.acc * 512 / (c.dyn.cnt : Int)
    let s := modCell a (fun c => { c with dyn := { c.dyn with acc := 0, cnt := 0 } }) s
    if e.natAbs < 8 * 512 || !commands s then s
    else
      let s := modCell a (fun c => { c with dyn := { c.dyn with
        dsExact := c.dyn.dsExact + e / 2, usExact := c.dyn.usExact + e / 2 } }) s
      let l := a / 128
      let c := cell s a
      let s := pushOp l { op := 2, slot := BitVec.ofNat 8 (a % 128), owner := .tracking (BitVec.ofNat 13 a) } s
      if txoFull s (a % 128) c.dyn.usExact < 0 ∧ !c.dyn.reached then
        cellEvent 2 a l (a % 128) c.ent.serial (modCell a (fun c => { c with dyn := { c.dyn with reached := true } }) s)
      else s

/-- CONFIRM consecutive valid, aligned reports complete ranging (R164): RVOID clears, RANGED is posted, and the cell
becomes AVAILABLE unless it is FAULTED, BYPASSED or OUT_OF_SERVICE. -/
def rangingComplete (a : Nat) (s : State) : State :=
  let c := cell s a
  match c.dyn.confirm with
  | none => s
  | some k =>
    if k.run < confirmNeed s then s
    else
      let keep := c.ent.avail == .faulted || c.ent.avail == .bypassed || c.ent.avail == .outOfService
      let s := modCell a (fun c => { c with
        ent := { c.ent with rvoid := false }
        dyn := { c.dyn with confirm := none, acc := 0, cnt := 0, holdTill := none, validRun := 0, missRun := 0 } }) s
      let s := cellEvent 1 a (a / 128) (a % 128) c.ent.serial s
      if keep then s else dueAvail a .available s

/-- Ranging not complete within 8 × CONFIRM ticks of the apply tick (R164). -/
def confirmFail (a : Nat) (s : State) : State :=
  let c := cell s a
  match c.dyn.confirm with
  | none => s
  | some k =>
    if tickDiff s.tick k.apply < 8 * confirmNeed s - 1 || decide (confirmNeed s ≤ k.run) then s
    else
      let s := modCell a (fun c => { c with dyn := { c.dyn with confirm := none } }) s
      let s := pushOp (a / 128) (parkOp (leBytes 8 c.ent.serial.toNat) 0 true) s
      cellEvent 8 a (a / 128) (a % 128) c.ent.serial s

/-- A discovery answer at position `p` (R46, R156, R163). -/
def discovered (l p : Nat) (rtt : Int) (serial : BitVec 64) (ctype : Nat) (s : State) : State :=
  let (ds, u) := splitRtt s l rtt
  let sb := leBytes 8 serial.toNat
  let long : Word := 0x00010000
  let far : Rat := (rd s TCK_MAXFLIGHT_MAXFLIGHT : Nat)
  if serial = 0 then cellEvent 3 0xFFFF l p serial (pushOp l (parkOp sb long false) s)
  else match s.cells.find? fun c => c.2.ent.serial == serial with
  | none => cellEvent 3 0xFFFF l p serial (pushOp l (parkOp sb long false) s)
  | some (a, c) =>
    let slot := a % 128
    if a / 128 ≠ l then cellEvent 4 a l p serial (pushOp l (parkOp sb long false) s)
    else if c.ranged then cellEvent 5 a l p serial (pushOp l (parkOp sb 0 false) s)
    else if c.ent.ctype.toNat ≠ ctype then cellEvent 6 a l p serial (pushOp l (parkOp sb 0 false) s)
    else if far < (ds : Rat) / 8192 then
      cellEvent 7 a l p serial (wrB (LNK_STATUS_FAR l) true (pushOp l (parkOp sb long false) s))
    else if txoFull s slot u < 0 then cellEvent 2 a l p serial (pushOp l (parkOp sb long false) s)
    else
      let s := modCell a (fun c => { c with dyn := { c.dyn with dsExact := ds, usExact := u, reached := false } }) s
      pushOp l { op := 1, data := sb, owner := .assign (BitVec.ofNat 13 a) } s

/-! Bursts (R113 to R118, R150 to R152). -/

/-- The discovery window of tick `n` on a lane: FREE bits and DISC_RTT in 1/16 symbol. -/
def discWindow (x : LaneSt) (n : Tick) : Option (Nat × Int) :=
  match x.discMap with
  | some (e, f, r) => if e = n then some (f, r) else
    (match x.discPrev with
    | some (e, f, r) => if e = n then some (f, r) else none
    | none => none)
  | none => none

/-- Adds a measured arrival to a ranged cell's average (R158). -/
def track (a : Nat) (arr : Int) (s : State) : State :=
  let need := 2 ^ (fld (rangingRec s) 2 0 3 + 3)
  modCell a (fun c =>
    if !c.ranged then c
    else match c.dyn.holdTill with
      | some t => if tickGe s.tick t then
          { c with dyn := { c.dyn with holdTill := none, acc := arr, cnt := 1 } } else c
      | none => if need ≤ c.dyn.cnt then c else { c with dyn := { c.dyn with acc := c.dyn.acc + arr, cnt := c.dyn.cnt + 1 } }) s

/-- Places what a slot brought in this tick. -/
def setRx (a : Nat) (r : SlotRx) (s : State) : State := modCell a (fun c => { c with dyn := { c.dyn with rx := r } }) s

/-- The arm-table entry of an arm (R11, R289, R314). -/
def armE (s : State) (a : Nat) : List Byte := tab s 0x01 a

/-- A BOOT_UV report of tick `n` starts or restarts a refresh in window n + 2 (R334): AVAIL stays REFRESHING, whatever end of the refresh
before fell due in the same tick. -/
def bootUv (a : Nat) (s : State) : State :=
  let c := cell s a
  if c.ent.avail == .available || c.ent.avail == .refreshing then
    let e := s.tick + 2 + BitVec.ofNat 32 (fld (armE s c.ent.arm.toNat) 48 0 8)
    let s := modCell a (fun c => { c with dyn := { c.dyn with refEnd := some e } }) s
    dueAvail a .refreshing s
  else s

/-- A fault code in a valid report (R21, R23). A change outranked at its mark still raises its source (R24). -/
def reportFault (a : Nat) (code : Byte) (s : State) : State :=
  let c := cell s a
  if code = 0 then s
  else
    let s := modCell a (fun c => { c with ent := { c.ent with lastFault := code } }) s
    if code = 9 then
      if c.ent.avail == .bypassed || c.ent.avail == .empty then s
      else fault .cellBypassed 9 a (dueAvail a .bypassed s)
    else if c.ent.avail == .available || c.ent.avail == .refreshing || c.ent.avail == .missing || c.ent.avail == .outOfService then
      fault .cellFault code.toNat a (dueAvail a .faulted s)
    else s

/-- Counts a report towards ranging (R164): valid and within ±2 symbols of nominal, from the apply tick on. -/
def confirmReport (a : Nat) (good : Bool) (s : State) : State :=
  modCell a (fun c => match c.dyn.confirm with
    | none => c
    | some k => if tickGe s.tick k.apply then
        { c with dyn := { c.dyn with confirm := some { k with run := if good then k.run + 1 else 0 } } } else c) s

/-- A BLKSET in the first 2 ticks after a takeover while DEBLOCKED (R390). -/
def partnerBlocked (p : List Byte) (s : State) : State :=
  if s.dpx.blkWatch = 0 || !fldB p 8 5 then s
  else raiseSrc { src := .dpxLink, reason := 4, forced := 4 } { s with dpx := { s.dpx with blkWatch := 0 } }

/-- What BOOT_UV and FAULT of a valid NORMAL report bring about (R21, R334). -/
def reportEffects (a : Nat) (p : List Byte) (s : State) : State :=
  reportFault a (p.getD 10 0) (if fldB p 17 0 then bootUv a s else s)

/-- A valid NORMAL or ECHO report in the slot of address `a` (R124, R125, R152, R555). Reports of an UNRANGED cell up to the window
whose frame carried its PARK start no second identification. `aligned`: within ±2 symbols. A device
that waits for the active device's TICKIN judges its reports when it has come (R385). -/
def validReport (l slot : Nat) (echo aligned : Bool) (p : List Byte) (s : State) : State :=
  let a := l * 128 + slot
  let c := cell s a
  let n := s.tick
  if c.ent.avail == .empty then s
  else if c.ent.avail == .unranged && c.dyn.confirm.isNone then
    let s := if echo || waitsTickin s then s else takeReply l slot n p s
    let busy := ((lane s l).waiting ++ (lane s l).out.map (·.op)).any fun o => match o.owner with
      | .identRead x _ => x.toNat == a
      | .assign x => x.toNat == a
      | .identPark x => x.toNat == a
      | _ => false
    if echo || busy || waitsTickin s || (c.dyn.parked.any fun w => tickGe w n) then setRx a .measured s
    else setRx a .measured (pushOp l { op := 8, slot := BitVec.ofNat 8 slot, owner := .identRead (BitVec.ofNat 13 a) [] } s)
  else if echo then
    confirmReport a aligned (echoCompare l n p (setRx a (.echo p) s))
  else
    let s := confirmReport a aligned (setRx a (.report p) s)
    if waitsTickin s then s else reportEffects a p (partnerBlocked p (takeReply l slot n p s))

/-- A burst is decoded (R117, R126, R152, R604); `r` is what its receiver reads. In a discovery window the round trip of a discovery
burst and of a collision sets the lane's DISC_RTT (R161, R163). `disc`: the window with the round trip, `free`: its position is free. -/
def burstDecoded (l slot : Nat) (disc : Option Int) (free aligned : Bool) (r : BurstRead) (s : State) : State :=
  let a := l * 128 + slot
  let quiet := decide (0 < s.suppress)
  let s := if quiet then s else countErrors l r.codeErr r.dispErr s
  let s := if aligned || quiet then s else count (LNK_MISALIGN_CNT_COUNT l) s
  let s := modLane l (fun x => { x with decoded := true }) s
  let seen := modLane l (fun x => { x with discRtt := disc.or x.discRtt })
  let p := r.payload
  let good := crc crc16 (leBytes 4 s.tick.toNat ++ p.take 22) == fld p 22 0 16
  let rtype := fld p 0 13 3
  if !good && free then setRx a .collision (seen s)
  else if !good then fault .cellCrc 0 a (setRx a .invalid s)
  else if 3 ≤ rtype then setRx a .invalid s
  else if rtype = 2 then
    (match disc with
    | some rtt => discovered l slot rtt (BitVec.ofNat 64 (fld p 2 0 64)) (fld p 10 0 2) (seen s)
    | none => setRx a .measured s)
  else if fld p 0 0 13 ≠ a then fault .cellCrc 0 a (setRx a .invalid s)
  else validReport l slot (rtype == 1) aligned p s

/-- What the line brings in a slot of the upstream window of the newest mark (R113 to R118, R122): a burst more than 4 symbols from
nominal is measured and not decoded, and one later than that has brought no K27.7 by symbol 42. -/
def burstReceived (l slot : Nat) (b : Burst) (s : State) : State :=
  if !s.lanesOn || !laneRuns s l || decide (slotsOf (liveMode s) ≤ slot) || rd s (LNK_CTRL_LOOP l) != 0 then s
  else if rd s (LNK_CTRL_PATTERN l) ≠ 0 then checkPattern l (lineBits s l b.bits) s
  else
    let r := readBurst (lineBits s l b.bits)
    if !r.found then s
    else
      let a := l * 128 + slot
      let sym : Nat := if s.watch then 80 else 16
      let dev := b.arr.natAbs
      let s := track a b.arr s
      let win := discWindow (lane s l) s.tick
      let free := win.any fun w => w.1.testBit slot
      let disc := win.map fun w => w.2 + b.arr
      if dev ≤ 4 * sym then burstDecoded l slot disc free (decide (dev ≤ 2 * sym)) r s
      else
        let s := if free then modLane l (fun x => { x with discRtt := disc }) s else s
        let s := if b.arr < 0 then setRx a .measured s else s
        if 0 < s.suppress then s else count (LNK_DISCARD_CNT_COUNT l) s

/-! Availability by reports (R21). -/

/-- Reports missing in 3 consecutive ticks (R21). -/
def cellMiss (a : Nat) (s : State) : State :=
  let c := cell s a
  let due := s.avails.any fun x => x.addr.toNat == a && x.target == .missing
  if due || decide (c.dyn.missRun < 3) || !(c.ent.avail == .available || c.ent.avail == .refreshing) then s
  else fault .cellMiss 0 a (dueAvail a .missing (modCell a (fun c => { c with dyn := { c.dyn with validRun := 0 } }) s))

/-- Valid reports in 16 consecutive ticks (R21). -/
def cellRecovered (a : Nat) (s : State) : State :=
  let c := cell s a
  if c.ent.avail != .missing || decide (c.dyn.validRun < 16) then s else dueAvail a .available s

/-- The refresh time of a cell ends (R21, R333). -/
def refreshEnd (a : Nat) (s : State) : State :=
  let c := cell s a
  match c.dyn.refEnd with
  | none => s
  | some e => if c.ent.avail == .refreshing && tickGe s.tick (e - 2) then dueAvail a .available s else s

/-! Firmware distribution (R169). -/

/-- Number of 64-byte blocks of an image. -/
def fwBlocks (j : FwJob) : Nat := (j.image.length + 63) / 64

/-- A block of the image, the last one padded with 0xFF. -/
def fwBlock (j : FwJob) (k : Nat) : List Byte := ((j.image.drop (64 * k)).take 64 ++ List.replicate 64 0xFF).take 64

/-- The target cells: the ranged cells of the lanes named. -/
def fwTargets (s : State) (j : FwJob) : List CellAddr :=
  j.lanes.flatMap fun l => ((laneAddrs s l).filter fun a => (cell s a).ranged).map (BitVec.ofNat 13)

/-- Broadcasts an operation on every lane of the job. -/
def fwBroadcast (j : FwJob) (o : MbxOp) (s : State) : State := j.lanes.foldl (fun s l => pushOp l o s) s

/-- Whether firmware operations still wait or await replies. -/
def fwBusy (s : State) : Bool :=
  s.lanes.any fun x => (x.2.waiting ++ x.2.out.map (·.op)).any fun o => match o.owner with
    | .firmware _ => true
    | _ => false

/-- Starts a round of queries over the cells given, or ends the job when there are none. -/
def fwQuery (j : FwJob) (cells : List CellAddr) (s : State) : State :=
  if cells.isEmpty then fwFinish j s
  else
    let s := { s with fwJob := some { j with stage := .query, targets := cells, missing := [] } }
    cells.foldl (fun s a => pushOp (laneOf a) { op := 0x0D, slot := BitVec.ofNat 8 (slotOf a), owner := .firmware 0 } s) s

/-- Resends the blocks found missing (R169): broadcast when more than 4 cells miss one, unicast otherwise. A cell that has
missed the same block 8 times has failed. -/
def fwResend (j : FwJob) (s : State) : State :=
  let j := j.missing.foldl (fun (j : FwJob) (a, b) =>
    let n := (match j.misses.find? fun m => m.1 == a && m.2.1 == b with
      | some m => m.2.2
      | none => 0) + 1
    { j with
      misses := (a, b, n) :: j.misses.filter fun m => !(m.1 == a && m.2.1 == b)
      results := if 8 ≤ n then (a, 2) :: j.results else j.results }) j
  let live := j.missing.filter fun p => !(j.results.any fun r => r.1 == p.1)
  let s := { s with fwJob := some { j with stage := .resend, targets := live.map (·.1), missing := [] } }
  (live.map (·.2)).eraseDups.foldl (fun s b =>
    let who := live.filter fun p => p.2 == b
    let o : MbxOp := { op := 0x0C, arg := BitVec.ofNat 32 b, data := fwBlock j b, owner := .firmware 0 }
    if 4 < who.length then ((who.map fun p => laneOf p.1).eraseDups).foldl (fun s l => pushOp l o s) s
    else who.foldl (fun s p => pushOp (laneOf p.1) { o with slot := BitVec.ofNat 8 (slotOf p.1) } s) s) s

/-- The next step of a firmware distribution, once the operations of the step before it are done (R169). -/
def fwStep (s : State) : State :=
  match s.fwJob with
  | none => s
  | some j =>
    let s := flowReleased 40 s
    if fwBusy s then s
    else match j.stage with
      | .begin_ =>
        let o : MbxOp := { op := 0x0B, arg := BitVec.ofNat 32 j.image.length, owner := .firmware 0
                           data := padTo 32 j.sha ++ leBytes 4 (fwBlocks j) ++ leBytes 4 j.version.toNat }
        fwBroadcast j o { s with fwJob := some { j with stage := .data, next := 0 } }
      | .data =>
        if fwBlocks j ≤ j.next then fwQuery j (fwTargets s j) s
        else
          let o : MbxOp := { op := 0x0C, arg := BitVec.ofNat 32 j.next, data := fwBlock j j.next, owner := .firmware 0 }
          fwBroadcast j o { s with fwJob := some { j with next := j.next + 1 } }
      | .query => if j.missing.isEmpty then fwFinish j s else fwResend j s
      | .resend => fwQuery j j.targets s

/-! The upstream window's close and the mark, as the lanes see them. -/

/-- The lane's part of the upstream-window close (R118, R127, R133, R164, R167). A tick without a watched ranged cell neither counts
as one without a decoded burst nor ends their run (DESIGN CHOICE, log entry 60). -/
def laneClose (l : Nat) (s : State) : State :=
  if !laneRuns s l then s
  else
    let x := lane s l
    let quiet := decide (0 < s.suppress)
    let addrs := laneAddrs s l
    let silent := (addrs.filter fun a => (cell s a).ranged && (cell s a).dyn.rx == .nothing).length
    let s := if quiet then s else countN (LNK_NOLOCK_CNT_COUNT l) silent s
    let s := addrs.foldl (fun s a => match (cell s a).dyn.rx with
      | .report _ => s
      | .echo _ => s
      | .collision => s
      | _ => confirmReport a false s) s
    let s := wrB (LNK_STATUS_RXLOCK l) x.decoded s
    let watched := addrs.any fun a => (cell s a).ranged && (cell s a).ent.avail != .bypassed && (cell s a).ent.avail != .outOfService
    let s := if x.decoded then
        let s := modLane l (fun x => { x with quiet := 0 }) s
        if rdB s (LNK_STATUS_LOS l) then losActive (wrB (LNK_STATUS_LOS l) false s) else s
      else if quiet || !watched then s
      else modLane l (fun x => { x with quiet := x.quiet + 1 }) s
    missedReplies l s.tick (modLane l (fun x => { x with decoded := false }) s)

/-- The lane's part of a mark: the tick's error count starts afresh and a running echo counts its ticks (R125, R128). -/
def laneMark (s : State) : State :=
  { s with lanes := s.lanes.foldl (fun l x => kmod {} l x.1 fun y => { y with
      codeTick := 0, codeDone := false, echo := y.echo.map fun e => { e with left := e.left - 1 } }) s.lanes }

/-! The commands. -/

/-- LANES_STOP_ON_UNLOCK (R84). -/
def execLanesStopOnUnlock (s : State) : Host.Outcome State Fault Refusal := cmd lanesStopOnUnlock s

/-- LANE_PLL_UNLOCK (R71). -/
def execLanePllUnlock (k : Fin 4) (s : State) : Host.Outcome State Fault Refusal := cmd (lanePllUnlock k.val) s

/-- BURST_RECEIVED (R152). -/
def execBurstReceived (l : LaneIx) (slot : Fin 128) (b : Burst) (s : State) : Host.Outcome State Fault Refusal :=
  cmd (burstReceived l.val slot.val b) s

/-- CELL_MISS (R21). -/
def execCellMiss (a : CellAddr) (s : State) : Host.Outcome State Fault Refusal := cmd (cellMiss a.toNat) s

/-- MISSING_CELL_RECOVERED (R21). -/
def execMissingCellRecovered (a : CellAddr) (s : State) : Host.Outcome State Fault Refusal := cmd (cellRecovered a.toNat) s

/-- REFRESH_END (R333). -/
def execRefreshEnd (a : CellAddr) (s : State) : Host.Outcome State Fault Refusal := cmd (refreshEnd a.toNat) s

/-- RANGING_COMPLETE (R164). -/
def execRangingComplete (a : CellAddr) (s : State) : Host.Outcome State Fault Refusal := cmd (rangingComplete a.toNat) s

/-- CONFIRM_FAIL (R164). -/
def execConfirmFail (a : CellAddr) (s : State) : Host.Outcome State Fault Refusal := cmd (confirmFail a.toNat) s

/-- TRACKING_UPDATE (R158). -/
def execTrackingUpdate (a : CellAddr) (s : State) : Host.Outcome State Fault Refusal := cmd (trackingUpdate a.toNat) s

/-- MAILBOX_BUSY_TIMEOUT (R167). -/
def execMailboxBusyTimeout (l : LaneIx) (tag : Byte) (s : State) : Host.Outcome State Fault Refusal :=
  cmd (busyTimeout l.val tag) s

/-- FW_DISTRIBUTION_STEP (R169). -/
def execFwDistributionStep (s : State) : Host.Outcome State Fault Refusal := cmd fwStep s

/-- LANE_LOS (R127). -/
def execLaneLos (l : LaneIx) (s : State) : Host.Outcome State Fault Refusal := cmd (laneLos l.val) s

/-- LANE_CODE (R128). -/
def execLaneCode (l : Fin 69) (s : State) : Host.Outcome State Fault Refusal := cmd (laneCode l.val) s

/-- ECHO_END (R125). -/
def execEchoEnd (l : LaneIx) (s : State) : Host.Outcome State Fault Refusal := cmd (echoEnd l.val) s

/-- LNK_ECHO_GO (R123). -/
def execLnkEchoGo (l : LaneIx) (v : Word) (s : State) : Host.Outcome State Fault Refusal := cmd (regWrite (0x1000C + 0x100 * l.val) v (echoWrite l.val v)) s

end Sys2Proof.Machine
end

