-- ==== Sys2Proof/Machine/Remote.lean ====
section
/-! DEFINITION. Remote I/O stations and their GOOSE messages (R442 to R446, R526 to R530): reception, publication, repeats,
expiry, and the stations' acknowledgement deadlines. -/

namespace Sys2Proof.Machine

/-! Table entries (R442, R526, R529). -/

/-- A station-table entry. -/
def stEntry (s : State) (st : Nat) : List Byte := tab s 0x0D st
/-- The station is in use. -/
def stEn (e : List Byte) : Bool := fldB e 0 0
/-- The cyclic task that owns it. -/
def stTask (e : List Byte) : Nat := fld e 1 0 5
/-- Its subscription. -/
def stSub (e : List Byte) : Nat := fld e 2 0 5
/-- Its publication. -/
def stPub (e : List Byte) : Nat := fld e 3 0 5
/-- ACKMIN in ns. -/
def stAckMin (e : List Byte) : Nat := fld e 4 0 16 * 1000

/-- A GOOSE subscription entry. -/
def subEntry (s : State) (i : Nat) : List Byte := tab s 0x11 i
/-- A GOOSE publication entry. -/
def pubEntry (s : State) (i : Nat) : List Byte := tab s 0x12 i
/-- A GOOSE entry is active. -/
def gooseEn (e : List Byte) : Bool := fldB e 8 0
/-- Its pair: true for the process bus. -/
def goosePair (e : List Byte) : Bool := fldB e 8 1
/-- Its number of points. -/
def goosePts (e : List Byte) : Nat := fld e 9 0 6
/-- Its gocbRef. -/
def gooseRef (e : List Byte) : List Byte := (e.drop 17).take (fld e 16 0 6)

/-- A station's running state. -/
def stn (s : State) (st : Nat) : StationSt := kget {} s.bench.stations st

/-- Changes a station. -/
def modStn (st : Nat) (f : StationSt → StationSt) (s : State) : State :=
  { s with bench := { s.bench with stations := kmod {} s.bench.stations st f } }

/-- A subscription's running state. -/
def gsub (s : State) (i : Nat) : GooseSub := kget {} s.net.subs i

/-- Places a subscription's state. -/
def setGsub (i : Nat) (x : GooseSub) (s : State) : State := { s with net := { s.net with subs := kset {} s.net.subs i x } }

/-- A publication's running state. -/
def gpub (s : State) (i : Nat) : GoosePub := kget {} s.net.pubs i

/-- Places a publication's state. -/
def setGpub (i : Nat) (x : GoosePub) (s : State) : State := { s with net := { s.net with pubs := kset {} s.net.pubs i x } }

/-! Reception (R527, R528, R446). -/

/-- Quality a point takes from its validity (R528). -/
def pointQual : Validity → BitVec 3
  | .good => qFine
  | .questionable => qQuest
  | .invalid => qBad

/-- Whether a point's type is that of an I/O map entry (R527). -/
def pointType (g : GooseType) (vtype : Nat) : Bool :=
  match g with
  | .boolean => vtype == 0
  | .int32 => vtype == 1
  | .float32 => vtype == 2
  | .other => false

/-- The points agree with the I/O map entries of the stations that use subscription `i`. -/
def typesOk (s : State) (i : Nat) (pts : List GoosePoint) : Bool :=
  match s.bench.image with
  | none => true
  | some img => (List.range 32).all fun st =>
      let e := stEntry s st
      !(stEn e && stSub e == i) || img.io.all fun x =>
        x.output || decide (x.code < 0x800 + 32 * st) || decide (0x800 + 32 * st + 32 ≤ x.code) ||
          (match pts[x.code - (0x800 + 32 * st)]? with
          | some p => pointType p.typ x.vtype
          | none => true)

/-- Whether a message passes subscription `i` (R527). -/
def gooseOk (s : State) (i : Nat) (da : BitVec 48) (g : GooseMsg) : Bool :=
  let e := subEntry s i
  da.toNat == fld e 0 0 48 && g.appid.toNat == fld e 6 0 16 && g.confRev.toNat == fld e 12 0 32 && !g.ndsCom &&
    (!g.test || fldB e 8 2) && g.points.length == goosePts e && g.ack.isSome && typesOk s i g.points

/-- A message is newer than the last accepted one (R527). -/
def gooseNewer (x : GooseSub) (g : GooseMsg) : Bool :=
  match x.stNum with
  | none => true
  | some n => if g.stNum = n then decide (0 < (g.sqNum - x.sqNum).toInt) else decide (0 < (g.stNum - n).toInt)

/-- An input dataset arrives for station `st` (R443, R444, R446). -/
def stationInput (st : Nat) (g : GooseMsg) (s : State) : State :=
  let x := stn s st
  let hit := g.ack == some (x.oseq.zeroExtend 32)
  let s := modStn st (fun x => { x with
    inputs := g.points.map (·.val), quals := g.points.map fun p => pointQual p.validity, arrived := s.time
    waiting := x.waiting.filter fun w => g.ack != some (w.1.zeroExtend 32)
    lost := x.lost && !hit }) s
  if x.lost && hit then occur (0x400 + st) (wrBit BEN_RIO_LOST st false s) else s

/-- A GOOSE message reaches the subscription of its gocbRef (R527). A following device takes its stations from the mirror
(R530). -/
def gooseMessage (i : Nat) (da : BitVec 48) (g : GooseMsg) (s : State) : State :=
  if !gooseOk s i da g then count NET_GOOSE_ERR_CNT_COUNT s
  else
    let x := gsub s i
    if !gooseNewer x g then s
    else
      let s := setGsub i { stNum := some g.stNum, sqNum := g.sqNum, points := g.points
                           expires := some (s.time + g.ttl * 1000000), expired := false } s
      if follows s then s
      else forUpto 32 s fun s st =>
        let e := stEntry s st
        if stEn e && stSub e == i then stationInput st g s else s

/-- A GOOSE message from a port of a pair (R527): every active subscription of that pair with its gocbRef. -/
def gooseFrame (process : Bool) (da : BitVec 48) (g : GooseMsg) (s : State) : State :=
  forUpto 32 s fun s i =>
    let e := subEntry s i
    if gooseEn e && goosePair e == process && gooseRef e == g.gocbRef then gooseMessage i da g s else s

/-- timeAllowedToLive of the last accepted message passes (R528). -/
def gooseExpiry (i : Nat) (s : State) : State :=
  let x := gsub s i
  match x.expires with
  | none => s
  | some t => setGsub i { x with expires := none, expired := true } { s with time := max s.time t }

/-! Publication (R443, R530). -/

/-- T1 in ns. -/
def gooseT1 (s : State) : Nat := rd s NET_GOOSECFG_T1 * 1000
/-- T0 in ns. -/
def gooseT0 (s : State) : Nat := rd s NET_GOOSECFG_T0 * 1000000

/-- timeAllowedToLive in ms for an interval in ns, rounded up. -/
def gooseTtl (gap : Nat) : Nat := (2 * gap + 999999) / 1000000

/-- The message of a publication entry (R529) in the state `x`, with the interval to the next repeat in ns. -/
def goosePdu (e : List Byte) (gap : Nat) (x : GoosePub) : GoosePdu :=
  let vid := fld e 10 0 12
  { da := BitVec.ofNat 48 (fld e 0 0 48), appid := BitVec.ofNat 16 (fld e 6 0 16)
    vlan := if vid = 0 then none else some (BitVec.ofNat 3 (fld e 10 13 3), BitVec.ofNat 12 vid)
    gocbRef := gooseRef e, goId := gooseRef e, datSet := gooseRef e, confRev := BitVec.ofNat 32 (fld e 12 0 32)
    stNum := x.stNum, sqNum := x.sqNum, ttl := gooseTtl gap, points := x.points, oseq := x.oseq.zeroExtend 32 }

/-- Sends a publication on the ports of its pair that are up, and fixes its next repeat. -/
def sendGoose (i gap : Nat) (x : GoosePub) (s : State) : State :=
  let e := pubEntry s i
  setGpub i { x with nextAt := some (s.time + gap) } (sendPair (bitNat (goosePair e)) (.goose (goosePdu e gap x)) s)

/-- A station's outputs are published at the end of a cycle of its owner (R443, R446): a new OSEQ with its cycle deadline. -/
def publish (st next : Nat) (s : State) : State :=
  let e := stEntry s st
  let i := stPub e
  if !stEn e || !gooseEn (pubEntry s i) || !commands s then s
  else
    let o := (stn s st).oseq + 1
    let pts := (List.range (goosePts (pubEntry s i))).map fun p => kget ((0 : Word), qFine) (stn s st).outputs p
    let s := modStn st (fun x => { x with oseq := o, waiting := x.waiting ++ [(o, max next (s.time + stAckMin e))] }) s
    let x := gpub s i
    sendGoose i (gooseT1 s) { x with stNum := x.stNum + 1, sqNum := 0, pubAt := s.time, oseq := o, points := pts } s

/-- A publication is repeated (R530): at T1, 2 T1, 4 T1 and so on after it, and once that interval reaches T0, every T0. -/
def gooseRepeat (i : Nat) (s : State) : State :=
  let x := gpub s i
  match x.nextAt with
  | none => s
  | some t =>
    if !commands s then setGpub i { x with nextAt := none } s
    else
      let s := { s with time := max s.time t }
      sendGoose i (min (gooseT0 s) (t - x.pubAt)) { x with sqNum := x.sqNum + 1 } s

/-! Deadlines (R445). -/

/-- A station is lost (R445): outputs undelivered by their deadline. -/
def stationLost (st : Nat) (s : State) : State :=
  if (stn s st).lost then s
  else occur (0x400 + st) (fault .remoteIo 0 st (wrBit BEN_RIO_LOST st true (modStn st (fun x => { x with lost := true }) s)))

/-- The oldest publication of a station passes its cycle deadline without an acknowledgement. -/
def stationDeadline (st : Nat) (s : State) : State :=
  match (stn s st).waiting with
  | [] => s
  | (_, t) :: r =>
    if follows s then s
    else stationLost st (modStn st (fun x => { x with waiting := r }) { s with time := max s.time t })

/-- The deadlines that have come by now (R445): evaluated before a release latches its inputs. -/
def stationsDue (s : State) : State :=
  if follows s then s
  else forUpto 32 s fun s st =>
    let x := stn s st
    if x.waiting.any fun w => decide (w.2 ≤ s.time) then
      stationLost st (modStn st (fun x => { x with waiting := x.waiting.filter fun w => decide (s.time < w.2) }) s)
    else s

/-! Inputs (R444). -/

/-- A station's input points as they stand, with their own qualities and BAD once expired (R528). -/
def stationPoints (s : State) (st : Nat) : List (Word × BitVec 3) :=
  let x := stn s st
  let old := !follows s && (gsub s (stSub (stEntry s st))).expired
  (x.inputs.zip x.quals).map fun p => (p.1, if old then qBad else p.2)

/-- The owner's release latches a station's inputs (R444, R528). `last`: the previous release. -/
def stationLatch (last st : Nat) (s : State) : State :=
  let x := stn s st
  let q := if x.lost then qBad else if last < x.arrived then qFine else qHeld
  let l := (stationPoints s st).map fun p => (p.1, qMax p.2 q)
  modStn st (fun x => { x with latched := l }) s

/-! The commands. -/

/-- GOOSE_TTL_EXPIRY (R528). -/
def execGooseTtlExpiry (i : Fin 32) (s : State) : Host.Outcome State Fault Refusal := cmd (gooseExpiry i.val) s

/-- GOOSE_REPEAT (R530). -/
def execGooseRepeat (i : Fin 32) (s : State) : Host.Outcome State Fault Refusal := cmd (gooseRepeat i.val) s

/-- STATION_DEADLINE (R445). -/
def execStationDeadline (st : Fin 32) (s : State) : Host.Outcome State Fault Refusal := cmd (stationDeadline st.val) s

end Sys2Proof.Machine
end

