-- ==== Sys2Proof/Machine/Foreman.lean ====
section
/-! DEFINITION. The Foreman (chapter 16): executors and their availability, ready lists, dispatch and pre-emption, waits, the
service contexts of the flows, and what the FMN registers show. -/

namespace Sys2Proof.Machine

/-! Executors (R415, R418, R459). -/

/-- Split mode (R415). -/
def split (s : State) : Bool := rdB s BEN_CFG_SPLIT

/-- Number of executors. -/
def execCount (s : State) : Nat := if split s then 16 else 8

/-- Executor `e` belongs to PD4 BENCHB (R418). -/
def inPd4 (s : State) (e : Nat) : Bool := decide (execCount s / 2 ≤ e)

/-- Executor `e` is available: it does not depend on PD4, or PD4 is on and the Watch profile does not apply (R418,
R570). -/
def execPowered (s : State) (e : Nat) : Bool := !inPd4 s e || (domainOn s 4 && !rdB s PWR_DOMSTAT_WATCHPROF)

/-- The bench of an executor. -/
def benchOf (s : State) (e : Nat) : Nat := if split s then e / 2 else e

/-- A context may run on executor `e` (R459): it exists, is available, in service and not halted. -/
def execUsable (s : State) (e : Nat) : Bool :=
  decide (e < execCount s) && execPowered s e && !s.bench.halted.getLsbD e && !s.bench.benchFailed.getLsbD (benchOf s e)

/-- The context on an executor. -/
def onExec (s : State) (e : Nat) : Option Nat :=
  match kget 0 s.fmn.execs e with
  | 0 => none
  | c + 1 => some c

/-- Places a context on an executor, or nothing. -/
def setExec (e : Nat) (c : Option Nat) (s : State) : State :=
  { s with fmn := { s.fmn with execs := kset 0 s.fmn.execs e (match c with | some c => c + 1 | none => 0) } }

/-! Ready lists (R457, R458). -/

/-- A context becomes READY, at the tail of its list. -/
def makeReady (c : Nat) (s : State) : State :=
  let p := (fctx s c).prio
  let s := modCtx c (fun x => { x with st := .ready }) s
  { s with fmn := { s.fmn with ready := s.fmn.ready ++ [(p, c)] } }

/-- A context returns to the head of its list. -/
def makeReadyHead (c : Nat) (s : State) : State :=
  let p := (fctx s c).prio
  let s := modCtx c (fun x => { x with st := .ready }) s
  { s with fmn := { s.fmn with ready := (p, c) :: s.fmn.ready } }

/-- A context leaves the ready lists. -/
def unready (c : Nat) (s : State) : State :=
  { s with fmn := { s.fmn with ready := s.fmn.ready.filter fun x => x.2 != c } }

/-- In the Watch profile PD4 powers down once nothing runs on its executors (R570). -/
def pd4Rest (s : State) : State :=
  if rdB s PWR_DOMSTAT_WATCHPROF && domainOn s 4 && !((List.range 16).any fun e => inPd4 s e && (onExec s e).isSome) then
    wrBit PWR_DOMSTAT_ON 4 false s
  else s

/-- A context leaves its executor. -/
def leaveExec (c : Nat) (s : State) : State :=
  let e := (fctx s c).exec
  if onExec s e = some c then pd4Rest (setExec e none s) else s

/-- The first context, in priority order and then in list order, that may run on executor `e` (R458). -/
def firstReady (s : State) (e : Nat) : Option Nat :=
  let ok := s.fmn.ready.filter fun x => (fctx s x.2).affinity.getLsbD e
  (ok.foldl (fun (o : Option (Nat × Nat)) x => match o with
    | none => some x
    | some y => if x.1 < y.1 then some x else some y) none).map (·.2)

/-- A context runs on executor `e`. -/
def runOn (c e : Nat) (s : State) : State :=
  let n := s.fmn.clock
  let s := modCtx c (fun x => { x with st := .running, exec := e, stamp := n }) (unready c s)
  let s := setExec e (some c) { s with fmn := { s.fmn with clock := n + 1 } }
  if c < 96 then wr (BEN_TSTAT_EXEC c) e s else s

/-! Flows (R460, R461). -/

/-- Items of flow `f`. -/
def flowItems (s : State) (f : Nat) : Nat :=
  if f < 16 then (hctx s f).sub.length
  else if f < 32 then (hctx s (f - 16)).out.length
  else if f < 36 then
    ((List.range 16).map fun k => ((lane s (16 * (f - 32) + k)).waiting.filter fun o =>
      match o.owner with | .host _ => true | _ => false).length).sum
  else match f with
    | 36 => (s.batches.filter fun b => decide (b.staged < b.body.length)).length
    | 37 => (s.accepted.filter fun a => match a.cmd.opc with
        | .progLoad => true
        | .imgFinish => !s.sec.writing.any fun w => w.order == a.order
        | .attest => true
        | .cellFw => !s.fwJob.any fun j => j.order == a.order
        | _ => false).length
    | 38 => bitNat s.dpx.copyDue
    | 39 => (s.accepted.filter fun a => a.cmd.opc == .ledgerFetch).length
    | 40 => bitNat s.fwJob.isSome
    | 41 => 0
    | _ => if f < 48 then
        let q := kget ({} : EventFlow) s.fmn.evq (f - 42)
        q.queue.length + q.reserve.length
      else 0

/-- A flow is atomic (R461). -/
def flowAtomic (s : State) (f : Nat) : Bool := rdB s (FMN_FLOWCFG_KIND f)

/-- Servers a flow uses (R462). -/
def flowServers (s : State) (f : Nat) : Nat := if flowAtomic s f then 1 else rd s (FMN_FLOWCFG_SERVERS f)

/-- The service contexts of flow `f`, in order. -/
def serversOf (s : State) (f : Nat) : List Nat :=
  (s.fmn.ctxs.filter fun c => decide (96 ≤ c.1) && c.2.st != .free && c.2.flow == f).map (·.1)

/-- A server has an item. -/
def awake (s : State) (c : Nat) : Bool := (fctx s c).st != .idle

/-- Wakes or rests the servers of flow `f` so that as many work as it has items for them, and shows the flow (R461, R469). -/
def syncFlow (s : State) (f : Nat) : State :=
  let n := flowItems s f
  let sv := serversOf s f
  let up := sv.filter (awake s)
  let s :=
    if up.length < n then ((sv.filter fun c => !awake s c).take (n - up.length)).foldl (fun s c => makeReady c s) s
    else (up.drop n).foldl (fun s c => modCtx c (fun x => { x with st := .idle }) (unready c (leaveExec c s))) s
  let k := min n ((sv.filter fun c => (fctx s c).st == .running).length)
  let s := wr (FMN_FLOWSTAT_QUEUED f) (min 255 (n - k)) (wr (FMN_FLOWSTAT_INSVC f) k s)
  wr (FMN_FLOWSTAT_ROBOCC f) (if flowAtomic s f then 0 else k) s

/-- Brings the service contexts and the flow registers up to date. -/
def sync (s : State) : State := forUpto 48 s syncFlow

/-- The service contexts are allocated at the start of RUN, from each flow's SERVERS (R449). -/
def allocServers (s : State) : State :=
  let aff := BitVec.ofNat 16 (rd s FMN_CFG_SVCAFF)
  let (s, _) := forUpto 48 (s, 96) fun (s, next) f =>
    let n := min (flowServers s f) (256 - next)
    ((List.range n).foldl (fun s k => modCtx (next + k) (fun _ =>
      { st := .idle, flow := f, prio := rd s (FMN_FLOWCFG_PRIO f), affinity := aff }) s) s, next + n)
  sync s

/-! Dispatch, pre-emption and waits. -/

/-- An idle executor takes the first ready context (R458). -/
def dispatch (e : Nat) (s : State) : State :=
  let s := sync s
  if !execUsable s e || (onExec s e).isSome then s
  else match firstReady s e with
    | none => s
    | some c => sync (runOn c e s)

/-- The running context that a ready context `c` pre-empts (R458): of lowest priority among the usable executors in its
affinity, of equals the one dispatched last. -/
def victim (s : State) (c : Nat) : Option Nat :=
  let run := (List.range 16).filterMap fun e =>
    if (fctx s c).affinity.getLsbD e && execUsable s e then onExec s e else none
  run.foldl (fun (o : Option Nat) v => match o with
    | none => some v
    | some u =>
      let a := fctx s u
      let b := fctx s v
      if a.prio < b.prio ∨ (a.prio = b.prio ∧ a.stamp < b.stamp) then some v else some u) none

/-- A newly READY context pre-empts (R458). -/
def preempt (c : Nat) (s : State) : State :=
  let s := sync s
  let idle := (List.range 16).any fun e => (fctx s c).affinity.getLsbD e && execUsable s e && (onExec s e).isNone
  if (fctx s c).st != .ready || idle then s
  else match victim s c with
    | none => s
    | some v =>
      if (fctx s v).prio ≤ (fctx s c).prio then s
      else
        let e := (fctx s v).exec
        sync (runOn c e (makeReadyHead v (setExec e none (count FMN_PREEMPT_CNT_COUNT s))))

/-- A service routine has used its 2 µs (R459): it returns to the tail of its list. -/
def quantumEnd (c : Nat) (s : State) : State :=
  if c < 96 ∨ (fctx s c).st ≠ .running then s else sync (makeReady c (leaveExec c s))

/-- An event task begins its wait (R454, R455). -/
def enterWait (c : Nat) (s : State) : State :=
  let e := tab s 0x0B (c - 32)
  modCtx c (fun x => { x with
    st := .waiting, wmask := BitVec.ofNat 64 (fld e 0 0 64), all := fldB e 8 0, left := fld e 10 0 16 }) s

/-- A wait is met: the flags under its mask clear and become its release flags (R452). -/
def takeWait (c : Nat) (s : State) : State :=
  modCtx c (fun x => { x with rel := x.flags &&& x.wmask, flags := x.flags &&& ~~~x.wmask, tmo := false, left := 0 }) s

/-- A wait ends by its timeout (R452). -/
def timeoutWait (c : Nat) (s : State) : State :=
  count FMN_TMO_CNT_COUNT (modCtx c (fun x => { x with rel := 0, tmo := true, left := 0 }) s)

/-- Ticks of the waits pass at a mark (R453). -/
def waitsMark (s : State) : State :=
  { s with fmn := { s.fmn with ctxs := s.fmn.ctxs.map fun c =>
      if c.2.st == .waiting then (c.1, { c.2 with left := c.2.left - 1 }) else c } }

/-! Stalls (R467). -/

/-- A completion flow is held back only by its full ring (R465, R467). -/
def ringHeld (s : State) (f : Nat) : Bool :=
  decide (16 ≤ f ∧ f < 32) && (match (hctx s (f - 16)).out with
    | .event e :: _ => decide (cqRoom s (f - 16) < (if e.ext then 2 else 1))
    | _ :: _ => decide (cqRoom s (f - 16) < 1)
    | [] => false)

/-- Counts the ticks in which the flows hold items without a release. -/
def flowsMark (s : State) : State :=
  let s := forUpto 48 s fun s f =>
    if flowItems s f = 0 then flowReleased f s
    else if ringHeld s f then s
    else { s with fmn := { s.fmn with flows := kmod {} s.fmn.flows f fun x => { x with idle := x.idle + 1 } } }
  { s with fmn := { s.fmn with evq := forUpto 6 s.fmn.evq fun l g => kmod {} l g fun q => { q with raised := false } } }

/-- A flow has held items for STALL_TICKS without a release (R467). -/
def foremanStall (f : Nat) (s : State) : State :=
  let x := kget ({} : FlowSt) s.fmn.flows f
  if x.stalled || decide (x.idle < rd s FMN_CFG_STALL_TICKS) || flowItems s f == 0 || ringHeld s f then s
  else fault .foremanStall 1 f { s with fmn := { s.fmn with flows := kmod {} s.fmn.flows f fun x => { x with stalled := true } } }

/-! The captured context set (R469). -/

/-- Code of a context's state (R450). -/
def CtxState.code : CtxState → Nat
  | .free => 0
  | .idle => 1
  | .waiting => 2
  | .ready => 3
  | .running => 4
  | .stopped => 5

/-- The lowest set bit of a flag word, 0x3F after a timeout. -/
def relFlag (x : FmnCtx) : Nat :=
  if x.tmo then 0x3F else ((List.range 64).find? fun k => x.rel.getLsbD k).getD 0

/-- A write to FMN_LATCH captures the registers of all contexts (R469). -/
def fmnLatch (s : State) : State :=
  let s := wr FMN_LATCH_LSEQ (rd s FMN_LATCH_LSEQ + 1) (sync s)
  forUpto 256 s fun s c =>
    let x := fctx s c
    let s := wr (FMN_CTXSTAT_CSTATE c) x.st.code (wrB (FMN_CTXSTAT_ALL c) x.all (wr (FMN_CTXSTAT_PRIO c) x.prio
      (wr (FMN_CTXSTAT_EXEC c) x.exec (wr (FMN_CTXSTAT_FLOW c) x.flow s))))
    let s := wr (FMN_FLAGS_LO_F c) x.flags.toNat (wr (FMN_FLAGS_HI_F c) (x.flags.toNat / 2 ^ 32) s)
    let s := wr (FMN_MASK_LO_M c) x.wmask.toNat (wr (FMN_MASK_HI_M c) (x.wmask.toNat / 2 ^ 32) s)
    wr (FMN_REL_FLAG c) (relFlag x) (wr (FMN_TMO_LEFT c) x.left s)

/-! The commands. -/

/-- DISPATCH (R458). -/
def execDispatch (e : Fin 16) (s : State) : Host.Outcome State Fault Refusal := cmd (dispatch e.val) s

/-- PREEMPTION (R458). -/
def execPreemption (c : Fin 256) (s : State) : Host.Outcome State Fault Refusal := cmd (preempt c.val) s

/-- SERVICE_QUANTUM_END (R459). -/
def execServiceQuantumEnd (c : Fin 256) (s : State) : Host.Outcome State Fault Refusal := cmd (quantumEnd c.val) s

/-- FOREMAN_STALL (R467). -/
def execForemanStall (f : Fin 48) (s : State) : Host.Outcome State Fault Refusal := cmd (foremanStall f.val) s

end Sys2Proof.Machine
end

