-- ==== Sys2Proof/Machine/Image.lean ====
section
/-! DEFINITION. Reading a program image (R419, R420, R422, R429, R430): its directory, task table, I/O map and variable
directory, or none where the device refuses it. -/

namespace Sys2Proof.Machine

/-- Bytes of a variable's value. -/
def varSize (vtype : Nat) : Nat := if vtype = 0 then 1 else 4

/-- All bytes are 0. -/
def allZero (l : List Byte) : Bool := l.all (· == 0)

/-- A task-table entry (R422), if it breaks no limit. `event` says whether it stands among the event tasks. -/
def taskEntry (event split : Bool) (codeLen idataLen : Nat) (e : List Byte) : Option TaskDef :=
  let period := fld e 2 0 16
  let offset := fld e 4 0 16
  let rseg := fld e 19 0 8
  if fldB e 0 0 == event && fld e 0 3 5 == 0 && fld e 1 4 4 == 0 &&
      (if event then decide (period < 64) && offset == 0 else decide (1 ≤ period) && decide (offset < period)) &&
      (split || fld e 7 0 8 == 0) && decide (fld e 8 0 32 < codeLen) && decide (fld e 12 0 32 ≤ idataLen) &&
      decide (1 ≤ fld e 16 0 16) && decide (1 ≤ fld e 18 0 8) && (decide (rseg < 32) || rseg == 0xFF) &&
      decide (1 ≤ fld e 20 0 16 ∧ fld e 20 0 16 ≤ 1024) && allZero (e.drop 22) then
    some { event := event, safety := fldB e 0 1, ovrOnce := fldB e 0 2, prio := fld e 1 0 4, period := period
           offset := offset, affinity := BitVec.ofNat 16 (fld e 6 0 16), wdt := fld e 16 0 16, ovrLim := fld e 18 0 8
           rseg := rseg }
  else none

/-- A code of the I/O map with the direction it may take (R430). -/
def ioCodeOk (output : Bool) (c : Nat) : Bool :=
  if 0x800 ≤ c ∧ c < 0xC00 then true
  else if 0x300 ≤ c ∧ c < 0x340 then output
  else !output && decide (c < 0x28 ∨ (0x100 ≤ c ∧ c < 0x300) ∨ (0x400 ≤ c ∧ c < 0x40C) ∨ (0x410 ≤ c ∧ c < 0x41C) ∨
    (0xC00 ≤ c ∧ c < 0xC20) ∨ (0x1000 ≤ c ∧ c ≤ 0x1005) ∨ (0x2000 ≤ c ∧ c < 0x4000))

/-- An I/O map entry (R429), if it breaks no limit. -/
def ioEntry (e : List Byte) : Option IoEntry :=
  let out := fldB e 0 0
  if fld e 0 1 7 == 0 && decide (fld e 1 0 8 ≤ 2) && ioCodeOk out (fld e 2 0 16) && decide (fld e 4 0 32 + 8 ≤ 0x40000) then
    some { output := out, vtype := fld e 1 0 8, code := fld e 2 0 16, offset := fld e 4 0 32 }
  else none

/-- A variable of the directory (R419), if it breaks no limit. -/
def varEntry (idataLen : Nat) (e : List Byte) : Option VarDef :=
  let vt := fld e 4 0 8
  let rseg := fld e 12 0 8
  if decide (vt ≤ 2) && allZero ((e.drop 5).take 3) && decide (fld e 8 0 32 + varSize vt ≤ idataLen) &&
      (decide (rseg < 32) || rseg == 0xFF) && allZero ((e.drop 13).take 3) then
    some { id := BitVec.ofNat 32 (fld e 0 0 32), vtype := vt, offset := fld e 8 0 32, rseg := rseg }
  else none

/-- All answers, or none if one is missing. -/
def allSome {α : Type} : List (Option α) → Option (List α)
  | [] => some []
  | none :: _ => none
  | some a :: r => match allSome r with
    | some l => some (a :: l)
    | none => none

/-- Reads the body of a program image; `hash` and `epoch` come from its header. Two event tasks may not bear one number. -/
def parseImage (split : Bool) (hash : List Byte) (epoch : Nat) (b : List Byte) : Option ProgImage :=
  let codeLen := fld b 20 0 32
  let idataLen := fld b 24 0 32
  let retainLen := fld b 28 0 32
  let ncyc := fld b 36 0 8
  let nevt := fld b 37 0 8
  let nio := fld b 38 0 16
  let nvar := fld b 40 0 32
  let oIo := 64 + 32 * (ncyc + nevt)
  let oVar := oIo + 8 * nio
  let oCode := oVar + 16 * nvar
  let oData := oCode + codeLen
  if fld b 0 0 16 != 2 || decide (0x200000 < codeLen) || decide (0x180000 < idataLen) || decide (0x40000 < retainLen) ||
      decide (32 < ncyc) || decide (64 < nevt) || decide (4096 < nio) || nvar == 0 || decide (65535 < nvar) ||
      !allZero ((b.drop 44).take 20) || b.length != oData + idataLen then none
  else
    let raw := chunks 32 (ncyc + nevt) ((b.drop 64).take (32 * (ncyc + nevt)))
    let cyc := (raw.take ncyc).map (taskEntry false split codeLen idataLen)
    let evt := (raw.drop ncyc).map (taskEntry true split codeLen idataLen)
    match allSome (cyc ++ evt), allSome ((chunks 8 nio ((b.drop oIo).take (8 * nio))).map ioEntry),
        allSome ((chunks 16 nvar ((b.drop oVar).take (16 * nvar))).map (varEntry idataLen)) with
    | some tasks, some io, some vars =>
      if decide (((tasks.filter (·.event)).map (·.period)).Nodup) then
        some { compat := BitVec.ofNat 16 (fld b 2 0 16), imageId := BitVec.ofNat 64 (fld b 4 0 64)
               predId := BitVec.ofNat 64 (fld b 12 0 64), codeLen := codeLen
               rlayout := BitVec.ofNat 32 (fld b 32 0 32), tasks := tasks, io := io, vars := vars
               idata := (b.drop oData).take idataLen, hash := hash, epoch := epoch }
      else none
    | _, _, _ => none

end Sys2Proof.Machine
end

