-- ==== Sys2Proof/Machine/Trigger.lean ====
section
/-! DEFINITION. What the Ledger takes from the outputs of a signal as they come (R472, R476): the conditions of its trigger units
and the summaries of the channel stream. -/

namespace Sys2Proof.Machine

/-! The trigger table (R475). -/

/-- The entry of unit `u`. -/
def trEntry (s : State) (u : Nat) : List Byte := tab s 0x0F u
/-- KIND. -/
def trKind (e : List Byte) : Nat := fld e 0 0 3
/-- POL: negative. -/
def trNeg (e : List Byte) : Bool := fldB e 0 3
/-- OUTSIDE. -/
def trOutside (e : List Byte) : Bool := fldB e 0 4
/-- AUTO. -/
def trAuto (e : List Byte) : Bool := fldB e 0 5
/-- HCOUNT. -/
def trHcount (e : List Byte) : Bool := fldB e 0 6
/-- STREAM: the snapshot stream. -/
def trStream (e : List Byte) : Bool := fldB e 1 0
/-- SIG. -/
def trSig (e : List Byte) : Nat := fld e 2 0 16
/-- PATH: the fast path. -/
def trPath (e : List Byte) : Bool := fldB e 4 0
/-- T1 in ns. -/
def trT1 (e : List Byte) : Nat := fld e 20 0 32
/-- T2 in ns. -/
def trT2 (e : List Byte) : Nat := fld e 24 0 32
/-- N, the samples of a segment. -/
def trN (e : List Byte) : Nat := fld e 28 0 16 + 1
/-- PRE. -/
def trPre (e : List Byte) : Nat := fld e 30 0 8
/-- HOLD. -/
def trHold (e : List Byte) : Nat := fld e 32 0 32

/-- A level of the entry as a rational, mirrored for POL 1. -/
def trLevel (e : List Byte) (b : Nat) : Rat :=
  let v := rat32 (BitVec.ofNat 32 (fld e b 0 32))
  if trNeg e then -v else v

/-- The levels LO and HI of the unit as its comparisons take them: mirrored, a negative unit meets HI first. -/
def trLoHi (e : List Byte) : Rat × Rat :=
  if trNeg e && (trKind e == 1 || trKind e == 3) then (trLevel e 12, trLevel e 8) else (trLevel e 8, trLevel e 12)

/-- A trigger unit. -/
def trig (s : State) (u : Nat) : TrigSt := kget {} s.ledger.trigs u

/-- Changes a trigger unit. -/
def modTrig (u : Nat) (f : TrigSt → TrigSt) (s : State) : State :=
  { s with ledger := { s.ledger with trigs := kmod {} s.ledger.trigs u f } }

/-- The condition starts anew: no pulse and no edge in progress. -/
def trigFresh (x : TrigSt) : TrigSt := { x with start := none, peak := false, fired := false, below := false, stale := false }

/-! Conditions (R476). -/

/-- A pulse condition (pulse width, runt, timeout) takes an output `v` of instant `t`. -/
def pulseStep (e : List Byte) (lo hi hyst v : Rat) (t : Nat) (x : TrigSt) : TrigSt × Bool :=
  match x.start with
  | none =>
    if lo ≤ v then
      let now := trKind e == 2 && trT1 e == 0
      ({ x with start := some t, peak := decide (hi ≤ v), fired := now, stale := false }, now)
    else (x, false)
  | some t0 =>
    let w := t - t0
    if v < lo - hyst then
      let inside := decide (trT1 e ≤ w ∧ w ≤ trT2 e)
      let hit := match trKind e with
        | 0 => inside != trOutside e
        | 1 => !x.peak
        | _ => false
      (trigFresh x, hit && !x.stale)
    else
      let hit := trKind e == 2 && decide (trT1 e ≤ w) && !x.fired
      ({ x with peak := x.peak || decide (hi ≤ v), fired := x.fired || hit }, hit && !x.stale)

/-- The slew-rate condition takes an output `v` of instant `t`. -/
def slewStep (e : List Byte) (lo hi hyst v : Rat) (t : Nat) (x : TrigSt) : TrigSt × Bool :=
  let ends := fun (t0 : Nat) =>
    let d := t - t0
    if trOutside e then decide (trT1 e < d) else decide (d < trT1 e)
  match x.start with
  | none =>
    if v < lo - hyst then ({ x with below := true }, false)
    else if x.below && decide (lo ≤ v) then
      if hi ≤ v then (trigFresh x, ends t) else ({ x with start := some t, below := false, stale := false }, false)
    else (x, false)
  | some t0 =>
    if v < lo - hyst then ({ trigFresh x with below := true }, false)
    else if hi ≤ v then (trigFresh x, ends t0 && !x.stale)
    else (x, false)

/-- A unit takes one output of its signal (R476). -/
def trigStep (e : List Byte) (v : F32) (q : BitVec 3) (t : Nat) (x : TrigSt) : TrigSt × Bool :=
  if 4 ≤ trKind e then (x, false)
  else if q = qBad then (trigFresh x, false)
  else
    let y := if trNeg e then -rat32 v else rat32 v
    let (lo, hi) := trLoHi e
    let hyst := rat32 (BitVec.ofNat 32 (fld e 16 0 32))
    if trKind e = 3 then slewStep e lo hi hyst y t x else pulseStep e lo hi hyst y t x

/-- An output of signal `sig` on a path, of instant `t`: the armed units that watch it evaluate it. -/
def trigOutput (sig : Nat) (path : Bool) (v : F32) (q : BitVec 3) (t : Nat) (s : State) : State :=
  s.ledger.trigs.foldl (fun s x =>
    let e := trEntry s x.1
    if x.2.armed && trSig e == sig && trPath e == path then
      let (y, hit) := trigStep e v q t (trig s x.1)
      let s := modTrig x.1 (fun _ => y) s
      if hit then addFire x.1 { at_ := s.time, cond := true, value := v } s else s
    else s) s

/-! Summaries (R472). -/

/-- Widens a summary by an output. -/
def widenSum (o : Option (F32 × F32)) (v : F32) : F32 × F32 :=
  match o with
  | none => (v, v)
  | some (a, b) => (if lt32 v a then v else a, if lt32 b v then v else b)

/-- An output of a chain's path widens the summaries of the channels that record it. -/
def sumOutput (sig : Nat) (path : Bool) (v : F32) (s : State) : State :=
  let m := forUpto 256 s.ledger.minmax fun l k =>
    let e := tab s 0x0E k
    if fldB e 2 0 && fld e 0 0 16 == sig && fldB e 2 1 == path then
      kput l k (widenSum ((l.find? fun x => x.1 == k).map (·.2)) v)
    else l
  { s with ledger := { s.ledger with minmax := m } }

/-- A filter chain's path completes an output (R472, R476). -/
def ledgerOutput (chain : Nat) (fast : Bool) (v : F32) (q : BitVec 3) (t : Nat) (s : State) : State :=
  let s := if rdB s LDG_CFG_CHAN_EN && q != qBad then sumOutput chain fast v s else s
  trigOutput chain fast v q t s

end Sys2Proof.Machine
end

