-- ==== Sys2Proof/Machine/Filter.lean ====
section
/-! DEFINITION. The filter chains (chapter 08): descriptors and banks, delays, fine and fast outputs, the grid-locked output,
threshold comparators, synchronising resets, swaps and fades, and the tick output records. -/

namespace Sys2Proof.Machine

/-! Chains, descriptors and banks (R254, R255). -/

/-- A chain's running state. -/
def chain (s : State) (c : Nat) : ChainSt := kget {} s.chains c

/-- Changes a chain. -/
def modChain (c : Nat) (f : ChainSt → ChainSt) (s : State) : State := { s with chains := kmod {} s.chains c f }

/-- Descriptor of chain `c`. -/
def chDesc (s : State) (c : Nat) : List Byte := tab s 0x05 c
/-- Bank A or B of chain `c`. -/
def chBank (s : State) (c : Nat) (b : Bool) : List Byte := tab s 0x06 (2 * c + bitNat b)
/-- EN. -/
def chEn (e : List Byte) : Bool := fldB e 0 0
/-- MED_EN. -/
def chMed (e : List Byte) : Bool := fldB e 0 1
/-- FAST_EN. -/
def chFast (e : List Byte) : Bool := fldB e 0 2
/-- GRID_EN. -/
def chGrid (e : List Byte) : Bool := fldB e 0 3
/-- TSYNC 1: interpolated. -/
def chInterp (e : List Byte) : Bool := fldB e 0 4
/-- R1. -/
def chR1 (e : List Byte) : Nat := fld e 1 0 7
/-- R2. -/
def chR2 (e : List Byte) : Nat := fld e 2 0 6
/-- R3. -/
def chR3 (e : List Byte) : Nat := fld e 3 0 7
/-- T_NOM in ns. -/
def chTnom (e : List Byte) : Nat := fld e 4 0 16 * 100
/-- GRID_N: 128, 256 or 512. -/
def chGridN (e : List Byte) : Nat := 128 * 2 ^ fld e 6 0 2
/-- NOMF in Hz. -/
def chNomf (e : List Byte) : Nat := if fldB e 6 2 then 60 else 50
/-- NTAP of a bank. -/
def bkTaps (b : List Byte) : Nat := fld b 0 0 7
/-- SCALE of a bank. -/
def bkScale (b : List Byte) : Rat := rat32 (BitVec.ofNat 32 (fld b 4 0 32))
/-- OFFSET of a bank. -/
def bkOffset (b : List Byte) : Rat := rat32 (BitVec.ofNat 32 (fld b 8 0 32))
/-- Coefficient i of a bank in units of 2^-23. -/
def bkCoef (b : List Byte) (i : Nat) : Int := signed 24 (fld b (16 + 3 * i) 0 24)

/-- The chain takes a sigma-delta channel (R211). -/
def isSd (c : Nat) : Bool := decide (c < 24)

/-- The modulator clock period in ns (R214), as it is in force (R248). -/
def tMod (s : State) : Nat := s.meas.div

/-- Whether the filter chains run: in Watch only with precharge monitoring (R234). -/
def chainsRun (s : State) : Bool := !s.watch || rdB s LPE_CFG_PRECHG

/-! Delays (R239), in half ns. -/

/-- D_FINE of a chain with descriptor `e` and bank `b`, in half ns. -/
def dFine2 (tm : Nat) (c : Nat) (e b : List Byte) : Nat :=
  let n := bkTaps b
  let m := bitNat (chMed e)
  if isSd c then (3 * (chR1 e - 1) + 4 * m * chR1 e + (n - 1) * chR1 e) * tm else (4 * m + (n - 1)) * chTnom e

/-- D_FAST in ns. -/
def dFast (tm : Nat) (c : Nat) (e : List Byte) : Nat := if isSd c then (chR3 e - 1) * tm else 0

/-- The fine-path output period in ns (R237). -/
def tOut (tm : Nat) (c : Nat) (e : List Byte) : Nat := if isSd c then chR1 e * chR2 e * tm else chR2 e * chTnom e

/-- The settling length L (R249). -/
def settleLen (tm : Nat) (c : Nat) (e b : List Byte) : Nat :=
  let t := tOut tm c e
  if t = 0 then 0 else (dFine2 tm c e b + t - 1) / t

/-- Fine outputs before the first one whose record is FINE (R249). -/
def settleNeed (tm : Nat) (c : Nat) (e b : List Byte) : Nat :=
  settleLen tm c e b + (if chInterp e && isSd c then 7 else 0)

/-- Brings FLC_DFINEc and FLC_DFASTc up to date (R239). -/
def refreshDelays (c : Nat) (s : State) : State :=
  let e := chDesc s c
  let b := chBank s c (chain s c).bankB
  wr (FLC_DFINE_D_FINE c) (dFine2 (tMod s) c e b / 2) (wr (FLC_DFAST_D_FAST c) (dFast (tMod s) c e) s)

/-- Shows the newest record and the chain's state in FLC_STATc (R256). -/
def chainStat (c : Nat) (s : State) : State :=
  let x := chain s c
  let e := chDesc s c
  let need := settleNeed (tMod s) c e (chBank s c x.bankB)
  let s := wr (FLC_STAT_QUAL c) x.rec_.qual.toNat (wrB (FLC_STAT_PATH c) x.rec_.path (wrB (FLC_STAT_BANK c) x.bankB s))
  wrB (FLC_STAT_FADING c) x.fade.isSome (wrB (FLC_STAT_QUEUED c) x.queued.isSome
    (wr (FLC_STAT_SETTLE c) (min 0xFFFF (need - x.fineCnt)) s))

/-! Conversion (R223, R243). -/

/-- ((raw − OFS) × GAIN) × SCALE + OFFSET with a bank's SCALE and OFFSET. -/
def convert (s : State) (c : Nat) (b : List Byte) (raw : Rat) : Rat :=
  (raw - (rdI s (MEA_OFS_OFS c) : Rat)) * ((rd s (MEA_GAIN_GAIN c) : Nat) / (65536 : Rat)) * bkScale b + bkOffset b

/-- Weight of the incoming bank in the fade that runs (R251). -/
def fadeWeight (x : ChainSt) : Rat :=
  match x.fade with
  | some f => if f.len = 0 then 1 else (f.k : Rat) / f.len
  | none => 0

/-! Threshold comparators (R247). -/

/-- One output of value `v` and quality `q` before a comparator: its new state and whether it fires. `coarse`: a fine output
not yet settled. -/
def thrStep (t : List Byte) (v : F32) (q : BitVec 3) (coarse : Bool) (x : ThrSt) : ThrSt × Bool :=
  let level := BitVec.ofNat 32 (fld t 0 0 32)
  let hyst := BitVec.ofNat 32 (fld t 4 0 32)
  let below := fldB t 8 1
  if q.toNat = 5 || coarse then ({ x with count := 0 }, false)
  else
    let beyond := if below then lt32 v level else lt32 level v
    let back := if below then lt32 (add32 level hyst) v else lt32 v (sub32 level hyst)
    let n := if beyond then x.count + 1 else 0
    if x.armed then
      if fld t 9 0 8 ≤ n then ({ count := 0, armed := false }, true) else ({ x with count := n }, false)
    else ({ count := 0, armed := back }, false)

/-- The comparators of a chain that watch the path given evaluate an output. -/
def thresholds (c : Nat) (fast : Bool) (v : F32) (q : BitVec 3) (coarse : Bool) (s : State) : State :=
  let e := chDesc s c
  let (s, rs) := forUpto 2 (s, ([] : List Raise)) fun (s, rs) k =>
    let t := (e.drop (8 + 12 * k)).take 12
    if fldB t 8 0 && fldB t 8 2 == fast then
      let x := chain s c
      let (y, fire) := thrStep t v q coarse (if k = 0 then x.thr0 else x.thr1)
      let s := modChain c (fun x => if k = 0 then { x with thr0 := y } else { x with thr1 := y }) s
      if fire then
        (occur (2 * c + k) (wrB (if k = 0 then FLC_STAT_THR0 c else FLC_STAT_THR1 c) true s),
          rs ++ [{ src := .filtThreshold, detail := BitVec.ofNat 16 (c + 256 * k) }])
      else (s, rs)
    else (s, rs)
  raiseAll rs s

/-! Outputs (R238, R240, R244, R251). -/

/-- The Timecount of the last input of sigma-delta output `j` with an output period of `p` clocks (R240). -/
def sdInstant (s : State) (x : ChainSt) (j p : Nat) : Nat := x.resetAt + (j * p - 2) * tMod s

/-! The decimators (R237, R240). -/

/-- One bit, +1 or −1, enters a decimator of order 3 or 2 with decimation `r`; an output falls due every `r` bits, the first after r − 1. -/
def cicBit (order3 : Bool) (r : Nat) (b : Int) (x : Cic × List Int) : Cic × List Int :=
  let c := x.1
  let a1 := c.a1 + b
  let a2 := c.a2 + a1
  let a3 := c.a3 + a2
  let c := { c with a1 := a1, a2 := a2, a3 := a3, n := c.n + 1 }
  if c.n < r then (c, x.2)
  else
    let top := if order3 then a3 else a2
    let y1 := top - c.d1
    let y2 := y1 - c.d2
    ({ c with n := 0, d1 := top, d2 := y1, d3 := y2, outs := c.outs + 1 }, x.2 ++ [if order3 then y2 - c.d3 else y2])

/-- A bitstream through a decimator: its new state and its outputs. A bit of 1 is positive, unless INV is set (R215). -/
def cicRun (order3 : Bool) (r : Nat) (inv : Bool) (bits : List Bool) (c : Cic) : Cic × List Int :=
  bits.foldl (fun x b => cicBit order3 r (if xor b inv then 1 else -1) x) (c, [])

/-- The raw value of a decimator's output: ±32,768 counts for bit densities of 100 % and 0 % (R237), exact (DESIGN CHOICE, log
entry 69). -/
def cicRaw (order3 : Bool) (r : Nat) (v : Int) : Rat := 32768 * (v : Rat) / ((r ^ (if order3 then 3 else 2) : Nat) : Rat)

/-- Output `j` of a decimator is valid: its impulse response lies wholly after the reset mark (R240). -/
def cicValid (order3 : Bool) (j : Nat) : Bool := decide ((if order3 then 3 else 2) ≤ j)

/-- The value between eight fine outputs at a phase (R241, R245): the fixed resampler, whose phases have unity gain at DC. -/
def resample (p : Nat) (l : List F32) : F32 :=
  match l with
  | v :: r => if r.all (· == v) then v else Config.interp p l
  | [] => Config.interp p []

/-- Completes a fast output of chain `c` (R240, R243): `raw` its raw value, `at_` its last input's Timecount. -/
def fastOut (c : Nat) (raw : Rat) (q : BitVec 3) (at_ : Nat) (s : State) : State :=
  let x := chain s c
  let w := fadeWeight x
  let bank := match x.fade with
    | some f => if w = 0 then x.bankB else f.target
    | none => x.bankB
  let old := chBank s c x.bankB
  let v := match x.fade with
    | some f => of32 ((1 - w) * convert s c old raw + w * convert s c (chBank s c f.target) raw)
    | none => of32 (convert s c old raw)
  let s := modChain c (fun x => { x with fast := some { value := v, qual := q, at_ := at_, bank := bank, fading := decide (0 < w ∧ w < 1) }, fastCnt := x.fastCnt + 1 }) s
  ledgerOutput c true v q at_ (thresholds c true v q false (fastProtect c v q s))

/-- The sum of the FIR over its line, newest input first (R237). -/
def firSum (b : List Byte) (line : List Rat) : Rat :=
  let n := bkTaps b
  (((List.range n).zip line).foldl (fun (a : Rat) (i, v) => a + bkCoef b i * v) 0) / 8388608

/-- Feeds one input to the median stage and the FIR line (R238). The median's window is preloaded with the first input. -/
def feed (med : Bool) (v : Rat) (q : BitVec 3) (x : ChainSt) : ChainSt :=
  let w := if x.medWin.isEmpty then List.replicate 5 v else (v :: x.medWin).take 5
  let y := if med then (w.mergeSort (fun a b => decide (a ≤ b))).getD 2 v else v
  { x with medWin := w, firLine := (y :: x.firLine).take 64, lineQual := (q :: x.lineQual).take 68, fresh := x.fresh + 1 }

/-- Highest quality code of the newest `n` FIR inputs; the median's four earlier inputs count with it (R213, R244). -/
def lineQuality (x : ChainSt) (n : Nat) (med : Bool) : BitVec 3 :=
  (x.lineQual.take (if med then n + 4 else n)).foldl qMax 0

/-- Starts a fade or a swap (R251) against the active bank. `mark`: the commit mark's Timecount. -/
def startSwap (c : Nat) (r : SwapReq) (mark : Nat) (s : State) : State :=
  let x := chain s c
  if r.target = x.bankB then s
  else if bkTaps (chBank s c r.target) ≠ bkTaps (chBank s c x.bankB) then
    refreshDelays c (modChain c (fun x => { x with bankB := r.target, resetReq := true, done := x.done ++ [(r.target, 0)] }) s)
  else modChain c (fun x => { x with fade := some { target := r.target, len := r.len, from_ := mark } }) s

/-- A swap request at its commit mark (R251, R252). On a chain that does not run a fade waits for its outputs, or for the reset that
enabling it brings (R253). -/
def swapRequest (c : Nat) (r : SwapReq) (s : State) : State :=
  let x := chain s c
  chainStat c (match x.fade with
  | none => startSwap c r s.markAt s
  | some _ =>
    let s := if x.queued.isSome then count (FLC_REPL_COUNT c) s else s
    modChain c (fun x => { x with queued := some r }) s)

/-- The loop-slot output a chain takes as its frequency, of `outs` as the compute phase that has just ended left them, clamped to ±10 % of NOMF
(R245, R279). -/
def gridFreq (outs : KeyList SlotOut) (e : List Byte) : F32 :=
  let f := (kget ({} : SlotOut) outs (fld e 7 0 6)).y0
  let lo := of32 ((9 * chNomf e : Nat) / (10 : Rat))
  let hi := of32 ((11 * chNomf e : Nat) / (10 : Rat))
  if lt32 f lo then lo else if lt32 hi f then hi else f

/-- The grid-locked output at a fine output (R245): it emits a sample when the grid position crosses one. -/
def gridStep (c : Nat) (s : State) : State :=
  let e := chDesc s c
  if !chGrid e || !isSd c then s
  else
    let x := chain s c
    let settled := decide (settleLen (tMod s) c e (chBank s c x.bankB) + 8 ≤ x.fineCnt)
    let emitAt := fun (p j : Nat) (s : State) =>
      let y := (chain s c).fines.take 8
      if !settled then s
      else modChain c (fun x => { x with grid := some {
        index := j, value := resample p (y.map (·.value)), qual := (y.map (·.qual)).foldl qMax 0 } }) s
    let s := match x.gridLate with
      | some j => emitAt 0 j (modChain c (fun x => { x with gridLate := none }) s)
      | none => s
    let step : Rat := (chGridN e : Rat) * rat32 x.freq * (tOut (tMod s) c e : Rat) / 1000000000
    let pos := x.pos + step
    if pos < 1 then modChain c (fun x => { x with pos := pos }) s
    else
      let pos := pos - 1
      let p := (roundAway (64 * (1 - pos / step))).toNat
      let j := x.gridJ
      let s := modChain c (fun x => { x with pos := pos, gridJ := (j + 1) % chGridN e }) s
      if 64 ≤ p then modChain c (fun x => { x with gridLate := some j }) s else emitAt p j s

/-- A fade ends or advances with fine output `y` (R251, R252). -/
def fadeStep (c : Nat) (s : State) : State :=
  match (chain s c).fade with
  | none => s
  | some f =>
    if f.k < f.len then s
    else
      let q := (chain s c).queued
      let need := (chain s c).fineCnt + (if isSd c && chInterp (chDesc s c) then 7 else 0)
      let s := modChain c (fun x => { x with bankB := f.target, fade := none, queued := none, done := x.done ++ [(f.target, need)] }) s
      let s := refreshDelays c s
      match q with
      | some r => startSwap c r s.time s
      | none => s

/-- Adds a raw result to the calibration point that is being averaged (R223); `scan`: the SAR scan it belongs to. -/
def calAdd (ch : Nat) (raw : Rat) (q : BitVec 3) (scan : Option (BitVec 16)) (s : State) : State :=
  match s.meas.cal with
  | some r => if r.ch = ch ∧ r.count < 256 then
      { s with meas := { s.meas with cal := some { r with
        count := r.count + 1, sum := r.sum + raw, bad := r.bad || q.toNat == 5, inScan := scan } } }
    else s
  | none => s

/-- Completes a fine output of chain `c` from its line (R237, R240, R243, R244). `at_`: its newest input's Timecount. -/
def fineOut (c : Nat) (at_ : Nat) (s : State) : State :=
  let e := chDesc s c
  let x := chain s c
  let old := chBank s c x.bankB
  let raw := firSum old x.firLine
  let q := lineQuality x (bkTaps old) (chMed e)
  -- a fade advances at each output whose last input follows its commit mark
  let fade := x.fade.map fun f => if f.from_ < at_ then { f with k := f.k + 1 } else f
  let x' := { x with fade := fade }
  let on : Bool := match fade with
    | some f => decide (f.from_ < at_)
    | none => false
  let w := fadeWeight x'
  let v := match fade with
    | some f =>
      if on then of32 ((1 - w) * convert s c old raw + w * convert s c (chBank s c f.target) (firSum (chBank s c f.target) x.firLine))
      else of32 (convert s c old raw)
    | none => of32 (convert s c old raw)
  let ends := match fade with
    | some f => on && decide (f.len ≤ f.k)
    | none => false
  let bank := match fade with
    | some f => if on then f.target else x.bankB
    | none => x.bankB
  let s := modChain c (fun x => { x with
    fade := fade, fineCnt := x.fineCnt + 1, fresh := 0
    fines := ({ value := v, qual := q, at_ := at_, bank := bank, fading := on && !ends } :: x.fines).take 16 }) s
  let coarse := decide ((chain s c).fineCnt ≤ settleLen (tMod s) c e old)
  let s := if isSd c then calAdd c raw q none s else s
  let s := ledgerOutput c false v q at_ (thresholds c false v q coarse s)
  let s := gridStep c s
  if on then fadeStep c s else s

/-- A sigma-delta channel delivers its bitstream: channel and clock enabled, chain running. -/
def sdRuns (s : State) (c : Nat) : Bool :=
  isSd c && (chain s c).running && chainsRun s && rdB s (MEA_SDCH_EN c) && s.meas.clkEn.testBit (c / 4)

/-- Quality of a decimator's output: BAD while the channel is stuck (R216), and before the first valid one (R240). -/
def sdQual (s : State) (c : Nat) (valid : Bool) : BitVec 3 := if !valid || s.meas.stuck.getLsbD c then qBad else qFine

/-- The bits of output `j` of a path with a period of `p` modulator clocks, after those of the outputs before it (R240). -/
def pathBits (j p : Nat) : Nat := if j = 1 then p - 1 else p

/-- FAST_PATH_OUTPUT of a sigma-delta chain: the bits of its next fast output, which completes at its fixed instant (R240). -/
def fastPath (c : Nat) (bits : List Bool) (s : State) : State :=
  let e := chDesc s c
  let x := chain s c
  let j := x.fastCnt + 1
  if !sdRuns s c || !chFast e || bits.length ≠ pathBits j (chR3 e) then s
  else
    let t := sdInstant s x j (chR3 e)
    let (d, ys) := cicRun false (chR3 e) (rdB s (MEA_SDCH_INV c)) bits x.sinc2
    let s := modChain c (fun x => { x with sinc2 := d }) { s with time := max s.time t }
    ys.foldl (fun s v => fastOut c (cicRaw false (chR3 e) v) (sdQual s c (cicValid false j)) t s) s

/-- FINE_PATH_OUTPUT of a sigma-delta chain: the bits of its next fine output, through sinc3, median and FIR (R237, R240). -/
def finePath (c : Nat) (bits : List Bool) (s : State) : State :=
  let e := chDesc s c
  let x := chain s c
  let j := x.fineCnt + 1
  if !sdRuns s c || bits.length ≠ pathBits j (chR1 e * chR2 e) then s
  else
    let t := sdInstant s x j (chR1 e * chR2 e)
    let (d, ys) := cicRun true (chR1 e) (rdB s (MEA_SDCH_INV c)) bits x.sinc3
    let from_ := x.sinc3.outs
    let s := modChain c (fun x => { x with sinc3 := d }) { s with time := max s.time t }
    let line := (List.range ys.length).zip ys
    fineOut c t (modChain c (fun x => line.foldl (fun x y =>
      feed (chMed e) (cicRaw true (chR1 e) y.2) (sdQual s c (cicValid true (from_ + y.1 + 1))) x) x) s)

/-- A SAR result enters its chain (R222, R237): it is the newest fast output, and every R2-th completes a fine output. -/
def sarInput (c : Nat) (raw : Nat) (q : BitVec 3) (at_ : Nat) (s : State) : State :=
  let e := chDesc s c
  if !(chain s c).running || !chainsRun s then s
  else
    let s := fastOut c (raw : Rat) q at_ s
    let s := modChain c (feed (chMed e) raw q) s
    if chR2 e ≤ (chain s c).fresh then fineOut c at_ s else s

/-! Synchronising reset (R248, R249, R253). -/

/-- The reset of chain `c` at the mark (R249, R253). A fade ends with its target active; a queued request takes effect at the same mark
without a fade; each has its own FADE_DONE. -/
def chainReset (c : Nat) (s : State) : State :=
  let x := chain s c
  let fadeBank := (x.fade.map (·.target)).getD x.bankB
  let bank := (x.queued.map (·.target)).getD fadeBank
  let own := (x.fade.map fun f => (f.target, 0)).toList ++ (x.queued.map fun r => (r.target, 0)).toList
  refreshDelays c (modChain c (fun x => { x with
    bankB := bank, fade := none, queued := none, resetReq := false, resetAt := s.markAt
    done := x.done.map (fun d => (d.1, 0)) ++ own
    sinc3 := {}, sinc2 := {}, fineCnt := 0, fastCnt := 0, medWin := [], firLine := [], lineQual := [], fresh := 0, fines := []
    fast := none, thr0 := { x.thr0 with count := 0 }, thr1 := { x.thr1 with count := 0 }
    pos := 0, gridJ := 0, gridLate := none, grid := none, gridAt := none, lastFine := none }) s)

/-- Requests a reset of a running chain at the next mark. -/
def askReset (c : Nat) (s : State) : State := modChain c (fun x => if x.running then { x with resetReq := true } else x) s

/-- A register write asks for a reset of a chain at the first mark whose fence it clears. -/
def askResetReg (c : Nat) (s : State) : State :=
  if inFence s then modChain c (fun x => if x.running then { x with resetLate := true } else x) s else askReset c s

/-- A write to FLC_RST0 or FLC_RST1 (R248): the bits read 1 until applied. -/
def flcRst (high : Bool) (v : Word) (s : State) : State :=
  let late := inFence s
  forUpto 32 s fun s k =>
    let c := if high then 32 + k else k
    if v.getLsbD k && decide (c < 40) then
      modChain c (fun x => if late then { x with resetLate := true } else { x with resetReq := true })
        (wrBit (if high then FLC_RST1_RST else FLC_RST0_RST) k true s)
    else s

/-! The records at a mark (R241, R242, R245, R249). -/

/-- A record of quality BAD, whose value is open (R249). -/
def badRecord (bank : Bool) (s : State) : ChainRec × State :=
  let (v, s) := drawFree s
  ({ value := BitVec.ofNat 32 v, qual := qBad, bank := bank }, s)

/-- The record of the fine path from its newest outputs (R241, R242). The phase of an interpolated record is the nearest of the 64 to where
its instant lies between the fourth and the fifth output. -/
def fineRecord (c : Nat) (y : ChainOut) (s : State) : ChainRec :=
  let e := chDesc s c
  let x := chain s c
  let tm := tMod s
  let d := dFine2 tm c e (chBank s c x.bankB) / 2
  let span := x.fines.take 8
  if isSd c && chInterp e then
    let t := tOut tm c e
    let p := min 63 (roundAway (64 * ((s.markAt - x.resetAt - x.fineCnt * t : Nat) : Rat) / t)).toNat
    { value := resample p (span.map (·.value)), qual := (span.map (·.qual)).foldl qMax 0, bank := y.bank
      fading := span.any fun z => z.fading || z.bank != y.bank, age := BitVec.ofNat 24 (2 * tm + 4 * t + d) }
  else
    { value := y.value, qual := y.qual, bank := y.bank, fading := y.fading
      age := BitVec.ofNat 24 (if isSd c then d + 2 * tm else (s.markAt - y.at_) + d) }

/-- The record of chain `c` for the mark, as its outputs stand (R241, R249). `reset`: this is the reset mark. -/
def recordOf (c : Nat) (reset : Bool) (s : State) : ChainRec × State :=
  let e := chDesc s c
  let x := chain s c
  let tm := tMod s
  if reset then badRecord x.bankB s
  else if settleNeed tm c e (chBank s c x.bankB) < x.fineCnt then
    match x.fines with
    | [] => badRecord x.bankB s
    | y :: _ => (fineRecord c y s, s)
  else match x.fast with
    | some y =>
      if (isSd c && !chFast e) || (isSd c && !cicValid false x.fastCnt) then badRecord x.bankB s
      else ({ value := y.value, qual := qMax y.qual qCoarse, path := true, bank := y.bank, fading := y.fading
              age := BitVec.ofNat 24 (dFast tm c e + (s.markAt - y.at_)) }, s)
    | none => badRecord x.bankB s

/-- The 8 bytes of a record (R242). -/
def recordBytes (r : ChainRec) : List Byte :=
  leBytes 4 r.value.toNat ++ leBytes 1 (r.qual.toNat + 8 * bitNat r.path + 16 * bitNat r.bank + 32 * bitNat r.fading) ++
  leBytes 3 r.age.toNat

/-- The FV_BANKSWAP blocks that wait for a chain's FADE_DONE hear of it (R433). -/
def fadeHeard (c : Nat) (s : State) : State :=
  { s with bench := { s.bench with tasks := s.bench.tasks.map fun x =>
    (x.1, if x.2.asked.contains c then { x.2 with asked := x.2.asked.erase c, faded := x.2.faded ++ [c] } else x.2) } }

/-- FADE_DONE of the fades whose bank the record of the mark is wholly from (R251). -/
def fadesDone (c : Nat) (s : State) : State :=
  let x := chain s c
  let (now, later) := x.done.partition fun d => decide (d.2 ≤ x.fineCnt)
  now.foldl (fun s d => fadeHeard c (post 1 0x0201 [BitVec.ofNat 8 c, BitVec.ofNat 8 (bitNat d.1)] s)) (modChain c (fun x => { x with done := later }) s)

/-- A chain that produces no outputs shows quality BAD (R234). -/
def silentMark (c : Nat) (s : State) : State :=
  let x := chain s c
  if x.rec_.qual = qBad then s
  else
    let (r, s) := badRecord x.bankB s
    chainStat c (modChain c (fun x => { x with rec_ := r, gridAt := none, grid := none }) s)

/-- A chain's part of a mark: a reset that is due, its record, the end of a fade, and the frequency it holds until the next
mark, taken from the slot outputs `outs` (R279). -/
def chainMark (outs : KeyList SlotOut) (s : State) (c : Nat) : State :=
  let x := chain s c
  if !x.running || !chainsRun s then silentMark c s
  else
    let reset := x.resetReq
    let bit := if c < 32 then FLC_RST0_RST else FLC_RST1_RST
    let s := if reset then wrBit bit (c % 32) (x.resetLate && rdBit s bit (c % 32)) (chainReset c s) else s
    let s := modChain c (fun y => { y with resetReq := x.resetLate, resetLate := false }) s
    let (r, s) := recordOf c reset s
    let s := modChain c (fun x => { x with
      rec_ := r, freq := gridFreq outs (chDesc s c), gridAt := x.grid, grid := none
      lastFine := if r.qual.toNat = 0 then some r.value else x.lastFine }) s
    chainStat c (fadesDone c s)

/-- DIV and CLKEN take effect at the mark whose fence their write has cleared (R58, R248); the chains they reset reset at it. -/
def sdMark (s : State) : State :=
  let s := match s.meas.sdNext with
    | none => s
    | some (div, en) =>
      let old := s.meas
      let s := { s with meas := { s.meas with div := div, clkEn := en } }
      forUpto 24 s fun s c =>
        let s := if div = old.div then s else refreshDelays c s
        if div ≠ old.div ∨ old.clkEn.testBit (c / 4) ≠ en.testBit (c / 4) then askReset c s else s
  { s with meas := { s.meas with sdNext := s.meas.sdLate, sdLate := none } }

/-- A commit that changes a chain's descriptor (R248): EN to 1 or another structure resets it at the mark. -/
def chainCommit (c : Nat) (old : List Byte) (s : State) : State :=
  let e := chDesc s c
  if e = old then s
  else
    let shape := fun (e : List Byte) => (chMed e, chFast e, chR1 e, chR2 e, chR3 e, chTnom e)
    let s := if !chEn e then modChain c (fun x => { x with running := false, resetReq := false, resetLate := false }) s
      else modChain c (fun x => { x with
        running := true, resetReq := x.resetReq || !chEn old || decide (shape e ≠ shape old) }) s
    chainStat c (refreshDelays c s)

/-! The commands. -/

/-- FAST_PATH_OUTPUT (R240): a sigma-delta chain; a SAR chain's outputs complete with its results (R222). -/
def execFastPathOutput (c : Fin 40) (bits : List Bool) (s : State) : Host.Outcome State Fault Refusal := cmd (fastPath c.val bits) s

/-- FINE_PATH_OUTPUT (R240). -/
def execFinePathOutput (c : Fin 40) (bits : List Bool) (s : State) : Host.Outcome State Fault Refusal :=
  cmd (finePath c.val bits) s

/-- FLC_RST (R248). -/
def execFlcRst (high : Bool) (v : Word) (s : State) : Host.Outcome State Fault Refusal := cmd (regWrite (if high then 0x28004 else 0x28000) v (flcRst high v)) s

end Sys2Proof.Machine
end

