-- ==== Sys2Proof/Machine/Measure.lean ====
section
/-! DEFINITION. Measurement inputs (chapter 07): sigma-delta stuck detection, SAR scans and their triggers, calibration,
open-wire detection, reference and plausibility checks, window comparators, and sampled values. -/

namespace Sys2Proof.Machine

/-- Changes the measurement state. -/
def modMeas (f : MeasSt → MeasSt) (s : State) : State := { s with meas := f s.meas }

/-! Sigma-delta channels (R216). -/

/-- A bitstream holds one value for 256 clocks. -/
def sdStuck (n : Nat) (s : State) : State :=
  if !s.meas.clkEn.testBit (n / 4) || s.meas.stuck.getLsbD n then s
  else
    let s := modMeas (fun m => { m with stuck := m.stuck ||| BitVec.ofNat 24 (2 ^ n) }) s
    fault .measOpenwire 1 n (wrB (MEA_SDCH_STUCK n) true s)

/-- The stuck condition ends; the chain resets at the next mark (R248). -/
def sdStuckEnd (n : Nat) (s : State) : State :=
  if !s.meas.stuck.getLsbD n then s
  else
    let s := modMeas (fun m => { m with stuck := m.stuck &&& ~~~ (BitVec.ofNat 24 (2 ^ n)) }) s
    askReset n (wrB (MEA_SDCH_STUCK n) false s)

/-! SAR scans (R218 to R222). Channel 22 stands for BATT_SENSE_B, the second conversion of channel 21. -/

/-- The conversions of a scan with a mask, in order. -/
def scanList (mask : BitVec 22) : List Nat :=
  (List.range 22).flatMap fun k => if mask.getLsbD k || k == 16 then (if k = 21 then [21, 22] else [k]) else []

/-- Starts a scan now for a trigger stamped `t`. -/
def scanStart (t : Nat) (s : State) : State :=
  let mask := BitVec.ofNat 22 (rd s MEA_SAR_MASK_MASK)
  let s := modMeas (fun m => { m with
    scan := some { stamp := t, start := s.time, seq := m.scanSeq, mask := mask }
    pend := none, scanSeq := m.scanSeq + 1 }) s
  wrB MEA_SAR_STAT_BUSY true (wrB MEA_SAR_STAT_PEND false s)

/-- A trigger arrives (R220). -/
def sarTrigger (s : State) : State :=
  match s.meas.scan, s.meas.pend with
  | none, _ => scanStart s.time s
  | some _, none => wrB MEA_SAR_STAT_PEND true (modMeas (fun m => { m with pend := some s.time }) s)
  | some _, some _ => wrB MEA_SAR_STAT_SCAN_OVR true (count MEA_SAR_OVR_CNT_COUNT s)

/-- The tick trigger's part of a mark: every TICK_DIV marks one falls due TICK_OFS later. -/
def sarMark (s : State) : State :=
  if !rdB s MEA_SAR_TRIG_TICK_EN then s
  else
    let n := s.meas.tickDiv + 1
    if rd s MEA_SAR_TRIG_TICK_DIV ≤ n then
      modMeas (fun m => { m with tickDiv := 0, tickDue := some (s.markAt + rd s MEA_SAR_TRIG_TICK_OFS) }) s
    else modMeas (fun m => { m with tickDiv := n }) s

/-- SAR_TICK_TRIGGER. -/
def sarTick (s : State) : State :=
  match s.meas.tickDue with
  | none => s
  | some t => sarTrigger (modMeas (fun m => { m with tickDue := none }) { s with time := max s.time t })

/-- A write to MEA_SAR_TRIG; SW triggers a scan. -/
def sarTrigWrite (v : Word) (s : State) : State :=
  let div := v.toNat / 256 % 256
  let ofs := v.toNat / 65536
  if div = 0 ∨ tickLen s ≤ ofs then wrB MEA_SAR_STAT_WRERR true s
  else
    let s := wrB MEA_SAR_TRIG_TICK_EN (v.getLsbD 0) (wrB MEA_SAR_TRIG_TIME_EN (v.getLsbD 1) s)
    let s := wr MEA_SAR_TRIG_TICK_DIV div (wr MEA_SAR_TRIG_TICK_OFS ofs s)
    if v.getLsbD 2 then sarTrigger s else s

/-- Divider ratio K of a feed, from the board descriptor (R573). -/
def ratioK (s : State) (feed : Nat) : Rat := ((s.sec.board.map fun b => b.ratioK.getD feed 1)).getD 1

/-- A SAR result in its unit (R211, R223): the calibrated code 0 to 65,535 of an external channel, mV, 1/16 °C, or 0.1 V at the feed. -/
def sarResult (s : State) (ch raw : Nat) : Int :=
  if ch < 16 then
    let v : Rat := ((raw : Rat) - (rdI s (MEA_OFS_OFS (24 + ch)) : Rat)) * ((rd s (MEA_GAIN_GAIN (24 + ch)) : Nat) / (65536 : Rat))
    max 0 (min 65535 (roundAway v))
  else if ch < 21 then roundAway (Config.sarReading ch raw)
  else roundAway (10 * ratioK s (ch - 21) * Config.sarReading ch raw)

/-- The window comparator of a channel (R229). -/
def window (k : Nat) (v : Int) (q : BitVec 3) (s : State) : State :=
  if !rdB s (MEA_WINCFG_EN k) || q.toNat = 5 then s
  else
    let sg := fun (f : Field) => if k = 20 then signed 16 (rd s f) else (rd s f : Int)
    let lo := sg (MEA_WIN_LO k)
    let hi := sg (MEA_WIN_HI k)
    let h : Int := (rd s (MEA_WINCFG_HYST k) : Nat)
    let bit := BitVec.ofNat 22 (2 ^ k)
    if v < lo ∨ hi < v then
      if s.meas.winArmed.getLsbD k then
        fault .measWindow 1 k (wrBit MEA_WIN_STAT_OUT k true (modMeas (fun m => { m with winArmed := m.winArmed &&& ~~~ bit }) s))
      else s
    else if lo + h ≤ v ∧ v ≤ hi - h then modMeas (fun m => { m with winArmed := m.winArmed ||| bit }) s
    else s

/-- A conversion's result is ready (R218, R222): it is the next of the running scan, at its fixed instant. -/
def sarReady (ch : Nat) (raw : Nat) (s : State) : State :=
  match s.meas.scan with
  | none => s
  | some x =>
    let p := x.results.length
    if (scanList x.mask)[p]? ≠ some ch then s
    else
      let s := { s with time := max s.time (x.start + (p + 1) * 500) }
      let v := sarResult s ch raw
      let q : BitVec 3 := if ch < 16 && rdBit s MEA_OW_STAT_OPEN ch then qBad else qFine
      let r : SarResult := { val := BitVec.ofInt 16 v, qual := q, stamp := x.stamp
                             delay := BitVec.ofNat 16 (min 65535 (x.start - x.stamp)), seq := x.seq }
      let s := modMeas (fun m => { m with
        scan := some { x with results := x.results ++ [(ch, v, q)] }
        latest := kset {} m.latest ch r }) s
      let s := window (min ch 21) v q s
      if ch < 16 then calAdd (24 + ch) (raw : Rat) q (some x.seq) (sarInput (24 + ch) raw q (x.start + 40 + p * 500) s) else s

/-- Whether a result of scan `seq` meets the open-wire condition of mode `mode` (R225); none where it forms no pair. In alternate mode the
current is a pull-up in even scans and a pull-down in odd ones, so a pair is two results of successive scans (DESIGN CHOICE, log
entry 69). -/
def owHit (mode : Nat) (d v : Int) (seq : BitVec 16) (x : OpenWire) : Option Bool :=
  match mode with
  | 0 => some false
  | 1 => some (decide (65535 - d ≤ v))
  | 2 => some (decide (v ≤ d))
  | _ => match x.prev with
    | some (n, w) => if n + 1 = seq then some (decide (d < (v - w).natAbs)) else none
    | none => none

/-- Open-wire detection of an AIN channel at the end of scan `seq` (R225). -/
def openWire (seq : BitVec 16) (ch : Nat) (v : Int) (s : State) : State :=
  let mode := rd s MEA_OW_CFG_MODES / 2 ^ (2 * ch) % 4
  let d : Int := (rd s MEA_OW_THR_OW_DELTA : Nat)
  let n := rd s MEA_OW_THR_OW_COUNT
  let x := kget ({} : OpenWire) s.meas.ow ch
  let y := match owHit mode d v seq x with
    | some hit => { x with hits := if hit then x.hits + 1 else 0, clear := if hit then 0 else x.clear + 1 }
    | none => x
  let y := { y with prev := if mode = 3 then some (seq, v) else none }
  let s := modMeas (fun m => { m with ow := kset {} m.ow ch y }) s
  let isOpen := rdBit s MEA_OW_STAT_OPEN ch
  if !isOpen && decide (n ≤ y.hits) then fault .measOpenwire 2 (24 + ch) (wrBit MEA_OW_STAT_OPEN ch true s)
  else if isOpen && decide (n ≤ y.clear) then wrBit MEA_OW_STAT_OPEN ch false s
  else s

/-- One plausibility comparison (R228): the fourth consecutive failing scan raises the source. -/
def plausible (key : Nat) (bad : Bool) (r : Raise) (s : State) : State :=
  let n := if bad then kget 0 s.meas.plausRun key + 1 else 0
  let s := modMeas (fun m => { m with plausRun := kset 0 m.plausRun key n }) s
  if n = 4 then raiseSrc r s else s

/-- The plausibility checks of a scan (R228). -/
def plausibility (m : SarMonitors) (rs : List (Nat × Int × BitVec 3)) (s : State) : State :=
  let find := fun (ch : Nat) => (rs.find? fun r => r.1 == ch).map fun r => r.2.1
  let rail := fun (i ch num : Nat) (s : State) => match find ch, m.rails[i]? with
    | some v, some w => plausible ch (decide (w.natAbs < 50 * (v - w).natAbs)) { src := .supply, reason := 3, detail := BitVec.ofNat 16 num } s
    | _, _ => s
  let s := rail 2 19 2 (rail 1 18 5 (rail 0 17 0 s))
  let s := match find 20 with
    | some v => plausible 20 (decide (80 < (v - m.die).natAbs)) { src := .temperature, reason := 3 } s
    | none => s
  let feed := fun (i ch : Nat) (s : State) => match find ch, m.batt[i]? with
    | some v, some w => plausible ch (decide (w.natAbs < 20 * (v - w).natAbs)) { src := .battery, reason := 5, detail := BitVec.ofNat 16 i } s
    | _, _ => s
  feed 1 22 (feed 0 21 s)

/-- The factory value of channel 16 (R227, R588). -/
def refFactory (s : State) : Int := (rd s GLB_REFCAL_REFMV : Nat)

/-- A failed reference check makes every result of the scan BAD (R227), those already in their chains and in a calibration (R224) too. -/
def spoilScan (x : SarScan) (s : State) : State :=
  let s := modMeas (fun m => { m with cal := m.cal.map fun r => if r.inScan = some x.seq then { r with bad := true } else r }) s
  x.results.foldl (fun s (ch, _, _) =>
    let s := modMeas (fun m => { m with latest := kmod {} m.latest ch fun r => { r with qual := qBad } }) s
    if ch < 16 then modChain (24 + ch) (fun c => { c with
      lineQual := (match c.lineQual with | _ :: r => qBad :: r | [] => [])
      fast := c.fast.map fun y => { y with qual := qBad }
      fines := (match c.fines with
        | y :: r => if c.fresh = 0 then { y with qual := qBad } :: r else y :: r
        | [] => []) }) s
    else s) s

/-- A scan completes (R218, R220, R225, R227, R228): its checks, then the pending scan starts. -/
def sarScanEnd (m : SarMonitors) (s : State) : State :=
  match s.meas.scan with
  | none => s
  | some x =>
    let n := (scanList x.mask).length
    if x.results.length < n then s
    else
      let s := { s with time := max s.time (x.start + n * 500) }
      let ref := ((x.results.find? fun r => r.1 == 16).map fun r => r.2.1).getD 0
      let refBad := decide (3 * (refFactory s).natAbs < 1000 * (ref - refFactory s).natAbs)
      let s := if refBad then fault .measWindow 2 16 (wrB MEA_SAR_STAT_REFCHK true (spoilScan x s)) else s
      let s := x.results.foldl (fun s (ch, v, _) => if ch < 16 then openWire x.seq ch v s else s) s
      let s := plausibility m x.results s
      let s := wrB MEA_SAR_STAT_BUSY false (modMeas (fun m => { m with scan := none }) s)
      match s.meas.pend with
      | some t => scanStart t s
      | none => s

/-! Calibration (R223, R224). -/

/-- Ends a calibration with CAL_ERR. -/
def calErr (s : State) : State :=
  wrB MEA_SAR_STAT_CAL_ERR true (wrB MEA_SAR_STAT_CAL_BUSY false (modMeas (fun m => { m with cal := none }) s))

/-- A write to MEA_CAL; GO starts the averaging of a point. -/
def calWrite (v : Word) (s : State) : State :=
  let ch := v.toNat % 64
  let point := v.getLsbD 6
  if (v.getLsbD 7 && rdB s MEA_SAR_STAT_CAL_BUSY) || decide (40 ≤ ch) then wrB MEA_SAR_STAT_WRERR true s
  else
    let s := wrB MEA_CAL_POINT point (wr MEA_CAL_CH ch s)
    if !v.getLsbD 7 then s
    else
      let noZero := point && (match s.meas.calA0 with
        | some (c, _) => c != ch
        | none => true)
      if noZero || (decide (24 ≤ ch) && !rdBit s MEA_SAR_MASK_MASK (ch - 24)) then calErr s
      else wrB MEA_SAR_STAT_CAL_BUSY true (modMeas (fun m => { m with cal := some { ch := ch, point := point } }) s)

/-- The scan of the newest result averaged has not ended, so its reference check is to come (R227). -/
def calOpen (s : State) (r : CalRun) : Bool := r.inScan.isSome && s.meas.scan.map (·.seq) == r.inScan

/-- 256 raw results are averaged: A0 is kept; with A1, OFS and GAIN go to the shadow registers (R59, R223, R224). -/
def calDone (s : State) : State :=
  match s.meas.cal with
  | none => s
  | some r =>
    if r.count < 256 || calOpen s r then s
    else if r.bad then calErr s
    else
      let avg := r.sum / 256
      let s := wrB MEA_SAR_STAT_CAL_BUSY false (modMeas (fun m => { m with cal := none }) s)
      if !r.point then modMeas (fun m => { m with calA0 := some (r.ch, avg) }) s
      else
        let a0 := match s.meas.calA0 with
          | some (_, a) => a
          | none => 0
        let d := avg - a0
        let fs : Rat := (rd s MEA_CAL_FS_FS : Nat)
        if d ≤ 0 ∨ fs / d < 3 / 4 ∨ 5 / 4 < fs / d then calErr s
        else
          let held := fun (f : Field) (v : Int) =>
            ({ addr := f.addr, value := BitVec.ofNat 32 (v % (2 ^ f.width : Nat)).toNat, at_ := s.time } : StWrite)
          wrB TCK_COMMIT_PEND true { s with stWrites := s.stWrites ++
            [held (MEA_OFS_OFS r.ch) (roundAway a0), held (MEA_GAIN_GAIN r.ch) (roundAway (fs / d * 65536))] }

/-- A write to MEA_LATCH captures the SAR snapshot set (R236, R506). -/
def meaLatch (s : State) : State :=
  let s := wr MEA_LATCH_LSEQ (rd s MEA_LATCH_LSEQ + 1) s
  let s := forUpto 23 s fun s k =>
    let r := kget ({} : SarResult) s.meas.latest k
    wr (MEA_SNAP_RESULT k) r.val.toNat (wr (MEA_SNAP_QUAL k) r.qual.toNat s)
  let r := kget ({} : SarResult) s.meas.latest 0
  let s := wr MEA_SNAP_TS_LO_T r.stamp (wr MEA_SNAP_TS_HI_T (r.stamp / 2 ^ 32) s)
  wr MEA_SNAP_SCAN_SEQ r.seq.toNat (wr MEA_SNAP_SCAN_DELAY r.delay.toNat s)

/-! Sampled values (R230 to R233). -/

/-- A subscription entry. -/
def svEntry (s : State) (i : Nat) : List Byte := tab s 0x04 i

/-- Samples per second by the RATE code. -/
def svRate (e : List Byte) : Nat := [4000, 4800, 12800, 14400, 15360].getD (fld e 9 5 3) 4000

/-- SV_DELAY in ns. -/
def svDelay (e : List Byte) : Nat := fld e 12 0 16 * 1000

/-- A subscription's running state. -/
def svSt (s : State) (i : Nat) : SvSt := kget {} s.meas.sv i

/-- Quality of one value (R233). -/
def svQual (e : List Byte) (sync : Nat) (v : SvVal) : BitVec 3 :=
  if v.validity = .invalid ∨ (v.test ∧ !fldB e 8 1) then qBad
  else if v.validity = .questionable then qQuest
  else if sync = 0 then qUnsync
  else qFine

/-- Whether an ASDU received under a destination address belongs to an entry (R231). -/
def svMatches (e : List Byte) (da : BitVec 48) (a : SvAsdu) : Bool :=
  fldB e 8 0 && fld e 0 0 48 == da.toNat && fld e 6 0 16 == a.appid.toNat && fld e 16 0 7 == a.svid.length &&
    padTo 31 a.svid == (e.drop 17).take 31

/-- An ASDU is dated and stored, or discarded (R231, R232). A sample that comes after its delivery mark is never
delivered. -/
def svAsdu (da : BitVec 48) (a : SvAsdu) (s : State) : State :=
  forUpto 16 s fun s i =>
    let e := svEntry s i
    if !svMatches e da a then s
    else if a.vals.length ≠ fld e 9 0 5 ∨ svRate e ≤ a.smpCnt then count MEA_SV_ERR_COUNT s
    else
      let date := s.time / 1000000000 * 1000000000 + a.smpCnt * 1000000000 / svRate e
      if date + svDelay e ≤ s.markAt then s
      else
        let vals : List QVal := (a.vals.zip (List.range a.vals.length)).map fun (v, k) =>
          { val := of32 ((v.val.toInt : Rat) / (if fldB e 14 k then 100 else 1000)), qual := svQual e a.smpSynch v }
        modMeas (fun m => { m with sv := kmod {} m.sv i fun x => { x with
          queue := x.queue.filter (fun y => decide (y.date ≠ date)) ++ [{ date := date, vals := vals }] } }) s

/-- Date of the newest sample instant at or before `t`. -/
def svDue (rate t : Nat) : Nat :=
  let sec := t / 1000000000
  sec * 1000000000 + (t % 1000000000 * rate / 1000000000 * 1000000000) / rate

/-- The sample instants after `old` up to `due`, newest first; `fuel` bounds their number. -/
def svInstants (rate old : Nat) : Nat → Nat → List Nat
  | 0, _ => []
  | fuel + 1, due => if due ≤ old then [] else due :: svInstants rate old fuel (svDue rate (due - 1))

/-- Delivery of a stream's samples at the mark (R232, R233): the newest sample dated at or before the mark less SV_DELAY, HELD where the one
due is missing. -/
def svMark (s : State) (i : Nat) : State :=
  let e := svEntry s i
  if !fldB e 8 0 || decide (s.markAt < svDelay e) then s
  else
    let x := svSt s i
    let lim := s.markAt - svDelay e
    let due := svDue (svRate e) lim
    if x.due = some due then s
    else
      let news := match x.due with
        | some d => svInstants (svRate e) d 255 due
        | none => [due]
      let came := fun (t : Nat) => x.queue.find? fun y => y.date == t
      let missing : Nat := (news.takeWhile fun t => (came t).isNone).length
      let newest := news.findSome? came
      let x := match newest with
        | some y => { x with deliv := y.vals, date := some y.date, missRun := missing, lost := false }
        | none => { x with missRun := x.missRun + missing }
      let deliv := if missing = 0 then x.deliv else x.deliv.map fun v => { v with qual := if x.lost then qBad else qMax v.qual qHeld }
      modMeas (fun m => { m with sv := kset {} m.sv i { x with
        deliv := deliv, due := some due, queue := x.queue.filter fun y => decide (lim < y.date) } }) s

/-- After SV_HOLD consecutive missing samples the values become BAD (R233). -/
def svLost (i : Nat) (s : State) : State :=
  let e := svEntry s i
  let x := svSt s i
  if !fldB e 8 0 || x.lost || decide (x.missRun < fld e 10 0 8) then s
  else
    fault .svLoss 0 i (modMeas (fun m => { m with sv := kset {} m.sv i { x with
      lost := true, deliv := x.deliv.map fun v => { v with qual := qBad } } }) s)

/-- A delivered sampled value; BAD where none has been delivered. -/
def svValue (sv : KeyList SvSt) (i k : Nat) : QVal := (kget ({} : SvSt) sv i).deliv.getD k {}

/-! The commands. -/

/-- SD_STUCK (R216). -/
def execSdStuck (n : Fin 24) (s : State) : Host.Outcome State Fault Refusal := cmd (sdStuck n.val) s

/-- SD_STUCK_END (R216). -/
def execSdStuckEnd (n : Fin 24) (s : State) : Host.Outcome State Fault Refusal := cmd (sdStuckEnd n.val) s

/-- SAR_TICK_TRIGGER (R220). -/
def execSarTickTrigger (s : State) : Host.Outcome State Fault Refusal := cmd sarTick s

/-- SAR_SCAN_END (R218). -/
def execSarScanEnd (m : SarMonitors) (s : State) : Host.Outcome State Fault Refusal := cmd (sarScanEnd m) s

/-- SAR_RESULT_READY (R222). -/
def execSarResultReady (ch : Fin 23) (raw : BitVec 16) (s : State) : Host.Outcome State Fault Refusal :=
  cmd (sarReady ch.val raw.toNat) s

/-- CALIBRATION_POINT_DONE (R223). -/
def execCalibrationPointDone (s : State) : Host.Outcome State Fault Refusal := cmd calDone s

/-- MEA_SAR_TRIG_SW (R220). -/
def execMeaSarTrigSw (v : Word) (s : State) : Host.Outcome State Fault Refusal := cmd (regWrite 0x21004 v (sarTrigWrite v)) s

/-- MEA_CAL_GO (R223). -/
def execMeaCalGo (v : Word) (s : State) : Host.Outcome State Fault Refusal := cmd (regWrite 0x21010 v (calWrite v)) s

/-- SV_LOSS (R233). -/
def execSvLoss (i : Fin 16) (s : State) : Host.Outcome State Fault Refusal := cmd (svLost i.val) s

end Sys2Proof.Machine
end

