-- ==== Sys2Proof/Machine/Loop.lean ====
section
/-! DEFINITION. The loop engine (chapter 09): slot entries, operand sources, slot programs and laws, repetitive control, the run
of all slots in a compute phase, reference mailboxes, and the oscillation detectors. -/

namespace Sys2Proof.Machine

/-! Slot-table entries (R260). -/

/-- TYPE of a slot. -/
def slType (e : List Byte) : Nat := fld e 0 0 4
/-- DEFER. -/
def slDefer (e : List Byte) : Bool := fldB e 0 4
/-- ACT. -/
def slAct (e : List Byte) : Bool := fldB e 0 5
/-- XMODE. -/
def slXmode (e : List Byte) : Nat := fld e 1 0 2
/-- NOMF in Hz. -/
def slNomf (e : List Byte) : Nat := if fldB e 1 2 then 60 else 50
/-- SATLIM. -/
def slSatlim (e : List Byte) : Nat := fld e 2 0 8
/-- REP_THR. -/
def slRepThr (e : List Byte) : Nat := fld e 3 0 8
/-- FSRC. -/
def slFsrc (e : List Byte) : Nat := fld e 4 0 16
/-- GCHAN0. -/
def slG0 (e : List Byte) : Nat := fld e 6 0 6
/-- GCHAN1, 0x3F where none. -/
def slG1 (e : List Byte) : Nat := fld e 7 0 6
/-- LEAD. -/
def slLead (e : List Byte) : Nat := fld e 8 0 8
/-- Parameter P0 to P15. -/
def slP (e : List Byte) (i : Nat) : F32 := BitVec.ofNat 32 (fld e (16 + 4 * i) 0 32)

/-- Types of a slot (R260). -/
def tyOff : Nat := 0
def tyPi : Nat := 1
def tyPr : Nat := 2
def tyLeadlag : Nat := 3
def tyRep : Nat := 4
def tyGainlim : Nat := 5
def tySum : Nat := 6
def tyXform : Nat := 7

/-- A loop slot's state. -/
def slot (s : State) (k : Nat) : SlotSt := kget {} s.slots k

/-- Changes a loop slot. -/
def modSlot (k : Nat) (f : SlotSt → SlotSt) (s : State) : State := { s with slots := kmod {} s.slots k f }

/-! Initialisation (R266, R267). -/

/-- Outputs of an initialised slot: OUTINIT, 0.0 when OFF, with quality FINE. -/
def initOut (e : List Byte) : SlotOut :=
  let v := if slType e = tyOff then 0 else slP e 15
  { y0 := v, y1 := v, y2 := v, y3 := v }

/-- GRID_N of the chain GCHAN0 names (R275). -/
def repN (tabs : KeyList (List Byte)) (e : List Byte) : Nat := chGridN (tabIn tabs 0x05 (slG0 e))

/-- The state R267 initialises, the last index of a REP slot among it; its memory stays. `n`: GRID_N. -/
def slotInit (n : Nat) (e : List Byte) (x : SlotSt) : SlotSt :=
  { x with
    x1 := if slType e = tyPi then slP e 14 else 0, x2 := 0, theta := 0, out := initOut e, fine := initOut e
    jlast := n - 1 }

/-- Clears a REP memory (R267, R277). -/
def memClear (n : Nat) (x : SlotSt) : SlotSt := { x with mem := [], jlast := n - 1, repClamps := 0, repRaised := false }

/-- A slot's part of a commit mark (R267): `old` its entry before, `preset` the staged PRESET bit. -/
def slotCommit (k : Nat) (old : List Byte) (preset : Bool) (s : State) : State :=
  let e := tab s 0x07 k
  if slType e ≠ slType old ∨ preset then
    let n := repN s.tabs e
    let s := modSlot k (fun x => memClear n (slotInit n e x)) s
    { s with loopDone := kset {} s.loopDone k (initOut e) }
  else s

/-- The mark of a synchronising reset of chain `c` clears the memories that learn from it (R277). -/
def repReset (c : Nat) (s : State) : State :=
  forUpto 64 s fun s k =>
    let e := tab s 0x07 k
    if slType e = tyRep ∧ (slG0 e = c ∨ slG1 e = c) then modSlot k (memClear (repN s.tabs e)) s else s

/-! Arithmetic (R258, R259). -/

/-- Why a run stops. -/
inductive RunStop where
  | bad        -- a BAD operand (R262)
  | nonfin     -- a NaN or an infinity (R259)
  deriving DecidableEq, Repr

/-- A result, unless it is a NaN or an infinity (R259). A subnormal stands for zero of its sign (R258). -/
def ck (x : F32) : Except RunStop F32 :=
  if fin32 x then .ok (if x.toNat / 2 ^ 23 % 256 = 0 then x &&& 0x80000000 else x) else .error .nonfin

/-- a + b. -/
def eAdd (a b : F32) : Except RunStop F32 := ck (add32 a b)
/-- a − b. -/
def eSub (a b : F32) : Except RunStop F32 := ck (sub32 a b)
/-- a × b. -/
def eMul (a b : F32) : Except RunStop F32 := ck (mul32 a b)
/-- a ÷ b. -/
def eDiv (a b : F32) : Except RunStop F32 := ck (div32 a b)
/-- min(a, b). -/
def min32 (a b : F32) : F32 := if lt32 b a then b else a
/-- max(a, b). -/
def max32 (a b : F32) : F32 := if lt32 a b then b else a
/-- clamp(v, lo, hi) = min(max(v, lo), hi). -/
def clamp32 (v lo hi : F32) : F32 := min32 (max32 v lo) hi
/-- Whether v lies outside [lo, hi] (R606). -/
def outside (v lo hi : F32) : Bool := lt32 v lo || lt32 hi v

/-- 2π, 2π/3, 2/3 and √3 as the nearest binary32 values (R258). -/
def cTwoPi : F32 := 0x40C90FDB
def cTwoPi3 : F32 := 0x40060A92
def cTwoThirds : F32 := 0x3F2AAAAB
def cSqrt3 : F32 := 0x3FDDB3D7
def cOne : F32 := 0x3F800000
def cTwo : F32 := 0x40000000
def cThree : F32 := 0x40400000
def cEight : F32 := 0x41000000

/-! Operands (R261, R262). -/

/-- What a slot's run has so far: working registers, the state it builds, and what its CORE gave. -/
structure Run where
  w       : List QVal := List.replicate 8 { val := 0, qual := 0 }
  st      : SlotSt
  coreIn  : Option F32 := none
  coreQ   : BitVec 3 := 0
  clamped : Bool := false
  iclamp  : Bool := false
  mis     : Bool := false
  deriving DecidableEq, Repr

/-- What all runs of a phase read: its inputs, the slots as they stand and Ts. -/
structure LoopCx where
  inp   : PhaseIn
  slots : KeyList SlotSt
  ts    : F32
  deriving DecidableEq, Repr

/-- The addresses of the AVAILABLE cells of an arm in the records of the phase. -/
def availCells (cells : KeyList Cell) (arm : Nat) : List (Nat × Cell) :=
  cells.filter fun (_, c) => c.live.availCopy == .available && c.ent.arm.toNat == arm

/-- Sum of VCAP over cells, in 0.125 V (R26). -/
def vcapSum (l : List (Nat × Cell)) : Nat := l.foldl (fun n (_, c) => n + c.live.vcap.toNat) 0

/-- A fixed value of quality FINE. -/
def fineVal (v : F32) : QVal × Option F32 := ({ val := v, qual := qFine }, some v)

/-- Output Yk of a slot's outputs. -/
def SlotOut.y (o : SlotOut) : Nat → F32
  | 0 => o.y0
  | 1 => o.y1
  | 2 => o.y2
  | _ => o.y3

/-- A source (R261): its value, its quality and its last FINE value. -/
def source (cx : LoopCx) (code : Nat) : QVal × Option F32 :=
  if code ≤ 0x27 then
    let x := kget ({} : ChainSt) cx.inp.chains code
    ({ val := x.rec_.value, qual := x.rec_.qual }, x.lastFine)
  else if 0x100 ≤ code ∧ code ≤ 0x1FF then (svValue cx.inp.sv ((code - 0x100) / 16) (code % 16), none)
  else if 0x200 ≤ code ∧ code ≤ 0x2FF then
    let x := kget ({} : SlotSt) cx.slots ((code - 0x200) / 4)
    ({ val := x.out.y (code % 4), qual := x.out.qual }, some (x.fine.y (code % 4)))
  else if 0x300 ≤ code ∧ code ≤ 0x33F then
    let x := kget ({} : RefMbx) cx.inp.mbx (code - 0x300)
    (x.latched, x.fine)
  else if 0x400 ≤ code ∧ code ≤ 0x40B then
    fineVal (of32 ((vcapSum (availCells cx.inp.cells (code - 0x400)) : Rat) / 8))
  else if 0x410 ≤ code ∧ code ≤ 0x41B then
    fineVal (of32 (((availCells cx.inp.cells (code - 0x410)).length : Nat) : Rat))
  else if code = 0x600 then fineVal cx.ts
  else if code = 0x601 then fineVal (if cx.inp.conv = .deblocked then cOne else 0)
  else ({ val := 0, qual := qBad }, none)

/-- An operand by its source code (R262). -/
def operand (cx : LoopCx) (w : List QVal) (code : Nat) : Except RunStop QVal :=
  let c := code % 2 ^ 15
  if 0x700 ≤ c ∧ c ≤ 0x707 then .ok (w.getD (c - 0x700) {})
  else
    let (v, f) := source cx c
    if v.qual = qBad then .error .bad
    else if v.qual = qCoarse ∧ 2 ^ 15 ≤ code then
      match f with
      | some x => .ok { val := x, qual := qHeld }
      | none => .error .bad
    else .ok v

/-! Slot laws (R268 to R273, R276). -/

/-- Writes Y0 of a run. -/
def Run.y0 (r : Run) (y : F32) (clamped : Bool) : Run :=
  { r with st := { r.st with out := { r.st.out with y0 := y } }, clamped := clamped }

/-- PI (R268). -/
def lawPi (ts : F32) (p : Nat → F32) (e : F32) (r : Run) : Except RunStop Run := do
  let x := r.st.x1
  let u ← eAdd (← eMul (p 0) e) x
  let r := r.y0 (clamp32 u (p 4) (p 5)) (outside u (p 4) (p 5))
  if (lt32 (p 5) u && lt32 0 e) || (lt32 u (p 4) && lt32 e 0) then .ok r
  else
    let v ← eAdd x (← eMul (← eMul (p 1) ts) e)
    .ok { r with st := { r.st with x1 := clamp32 v (p 2) (p 3) }, iclamp := outside v (p 2) (p 3) }

/-- PR (R269) with frequency operand `f`. -/
def lawPr (ts : F32) (p : Nat → F32) (nomf : Nat) (f e : F32) (r : Run) : Except RunStop Run := do
  let f := clamp32 f (of32 ((9 * nomf : Nat) / (10 : Rat))) (of32 ((11 * nomf : Nat) / (10 : Rat)))
  let lim := p 4
  let w ← eMul (← eMul cTwoPi (p 3)) f
  let d ← eSub (← eSub (← eMul (p 1) e) (← eMul w r.st.x2)) (← eMul (← eMul cTwo (p 2)) r.st.x1)
  let v1 ← eAdd r.st.x1 (← eMul ts d)
  let x1 := clamp32 v1 (neg32 lim) lim
  let v2 ← eAdd r.st.x2 (← eMul (← eMul ts w) x1)
  let x2 := clamp32 v2 (neg32 lim) lim
  let u ← eAdd (← eMul (p 0) e) x1
  let r := { r with
    st := { r.st with x1 := x1, x2 := x2 }, iclamp := outside v1 (neg32 lim) lim || outside v2 (neg32 lim) lim }
  .ok (r.y0 (clamp32 u (p 5) (p 6)) (outside u (p 5) (p 6)))

/-- LEADLAG (R270). -/
def lawLeadlag (p : Nat → F32) (e : F32) (r : Run) : Except RunStop Run := do
  let u ← eSub (← eAdd (← eMul (p 0) e) (← eMul (p 1) r.st.x1)) (← eMul (p 2) r.st.x2)
  let y := clamp32 u (p 3) (p 4)
  .ok (({ r with st := { r.st with x1 := e, x2 := y } } : Run).y0 y (outside u (p 3) (p 4)))

/-- GAINLIM (R271). -/
def lawGainlim (ts : F32) (p : Nat → F32) (e : F32) (r : Run) : Except RunStop Run := do
  let v ← eMul (p 0) e
  let v ← if lt32 0 (p 1) then do
      let d ← eMul (p 1) ts
      let lo ← eSub r.st.out.y0 d
      let hi ← eAdd r.st.out.y0 d
      .ok (clamp32 v lo hi)
    else .ok v
  .ok (r.y0 (clamp32 v (p 2) (p 3)) (outside v (p 2) (p 3)))

/-- The terms of SUM from index `i` on. -/
def sumTerms (p : Nat → F32) : List QVal → Nat → F32 → Except RunStop F32
  | [], _, a => .ok a
  | w :: ws, i, a => do
    let a ← eAdd a (← eMul (p i) w.val)
    sumTerms p ws (i + 1) a

/-- SUM (R272). -/
def lawSum (p : Nat → F32) (e : F32) (r : Run) : Except RunStop Run := do
  let u ← sumTerms p r.w 0 e
  .ok (r.y0 (clamp32 u (p 8) (p 9)) (outside u (p 8) (p 9)))

/-- XFORM (R273). -/
def lawXform (xmode : Nat) (th : F32) (r : Run) : Except RunStop Run := do
  let w0 := (r.w.getD 0 {}).val
  let w1 := (r.w.getD 1 {}).val
  let w2 := (r.w.getD 2 {}).val
  let tm ← eSub th cTwoPi3
  let tp ← eAdd th cTwoPi3
  let dot := fun (a b c : F32) => do eAdd (← eAdd (← eMul w0 a) (← eMul w1 b)) (← eMul w2 c)
  let line := fun (c s : F32) => do eAdd (← eSub (← eMul w0 c) (← eMul w1 s)) w2
  let zero := fun (_ : Unit) => do eDiv (← eAdd (← eAdd w0 w1) w2) cThree
  let (y0, y1, y2) ← match xmode with
    | 0 => do
      let a ← eMul cTwoThirds (← dot (cos32 th) (cos32 tm) (cos32 tp))
      let b ← eMul cTwoThirds (← dot (sin32 th) (sin32 tm) (sin32 tp))
      .ok (a, neg32 b, ← zero ())
    | 1 => do
      .ok (← line (cos32 th) (sin32 th), ← line (cos32 tm) (sin32 tm), ← line (cos32 tp) (sin32 tp))
    | _ => do
      let a ← eMul cTwoThirds (← eSub (← eSub w0 (← eDiv w1 cTwo)) (← eDiv w2 cTwo))
      .ok (a, ← eDiv (← eSub w1 w2) cSqrt3, ← zero ())
  .ok { r with st := { r.st with out := { r.st.out with y0 := y0, y1 := y1, y2 := y2, y3 := th } }, clamped := false }

/-- A word of a REP memory. -/
def memAt (st : SlotSt) (j : Nat) : F32 := kget 0 st.mem j

/-- The learning part of REP (R276, R278): sample `j` of GCHAN0 with value `g0`, that of GCHAN1 where one is named, and
whether everything used is FINE. -/
def repLearn (p : Nat → F32) (n j : Nat) (e g0 : F32) (g1 : Option F32) (learn : Bool) (r : Run) : Except RunStop Run := do
  let st := if j = 0 then { r.st with repClamps := 0, repRaised := false } else r.st
  let a ← eMul (p 5) g0
  let x ← match g1 with
    | some g => do eAdd a (← eMul (p 6) g)
    | none => .ok a
  let st ← if learn then do
      let v ← eAdd (memAt st j) (← eMul (p 0) (← eSub e x))
      let m ← eAdd (memAt st ((j + n - 1) % n)) (memAt st ((j + 1) % n))
      let v ← eAdd (← eMul (p 1) v) (← eMul (p 2) m)
      let c := outside v (neg32 (p 3)) (p 3)
      .ok { st with mem := kset 0 st.mem j (clamp32 v (neg32 (p 3)) (p 3)), repClamps := st.repClamps + bitNat c }
    else .ok st
  .ok { r with st := { st with jlast := j } }

/-- REP (R276). -/
def lawRep (cx : LoopCx) (en : List Byte) (p : Nat → F32) (e : F32) (eq : BitVec 3) (r : Run) : Except RunStop Run := do
  let n := repN cx.inp.tabs en
  let r ← match (kget ({} : ChainSt) cx.inp.chains (slG0 en)).gridAt with
    | none => .ok r
    | some g =>
      if slG1 en = 0x3F then
        repLearn p n g.index e g.value none (decide (g.qual = qFine) && decide (eq = qFine)) r
      else match (kget ({} : ChainSt) cx.inp.chains (slG1 en)).gridAt with
        | some h =>
          if h.index = g.index then
            repLearn p n g.index e g.value (some h.value)
              (decide (g.qual = qFine) && decide (h.qual = qFine) && decide (eq = qFine)) r
          else repLearn p n g.index e g.value none false { r with mis := true }
        | none => repLearn p n g.index e g.value none false { r with mis := true }
  let u := memAt r.st ((r.st.jlast + 1 + slLead en) % n)
  .ok (r.y0 (clamp32 u (neg32 (p 4)) (p 4)) (outside u (neg32 (p 4)) (p 4)))

/-- CORE (R263): the law of the slot's type with A as its input; its quality is the highest among what it reads. -/
def core (cx : LoopCx) (en : List Byte) (a : QVal) (r : Run) : Except RunStop (Run × BitVec 3) := do
  let p := slP en
  let e ← ck a.val
  let quals := fun (n : Nat) => (r.w.take n).foldl (fun q v => qMax q v.qual) a.qual
  let r := { r with coreIn := some e }
  match slType en with
  | 1 => do .ok (← lawPi cx.ts p e r, a.qual)
  | 2 => do
    let f ← operand cx r.w (slFsrc en)
    .ok (← lawPr cx.ts p (slNomf en) (← ck f.val) e r, qMax a.qual f.qual)
  | 3 => do .ok (← lawLeadlag p e r, a.qual)
  | 4 => do .ok (← lawRep cx en p e a.qual r, a.qual)
  | 5 => do .ok (← lawGainlim cx.ts p e r, a.qual)
  | 6 => do .ok (← lawSum p e r, quals 8)
  | _ => do .ok (← lawXform (slXmode en) e r, quals 3)

/-! Slot programs (R263). -/

/-- PHASE: θ after one tick at frequency `a`. -/
def phaseStep (ts a th : F32) : Except RunStop F32 := do
  let t ← eAdd th (← eMul (← eMul cTwoPi a) ts)
  let t ← if le32 cTwoPi t then eSub t cTwoPi else .ok t
  if lt32 t 0 then eAdd t cTwoPi else .ok t

/-- One operation word. -/
def opStep (cx : LoopCx) (en op : List Byte) (r : Run) : Except RunStop Run := do
  let opc := fld op 0 0 8
  let d := fld op 1 0 3
  let a ← operand cx r.w (fld op 2 0 16)
  let av ← ck a.val
  let put := fun (v : F32) (q : BitVec 3) (r : Run) => { r with w := r.w.set d { val := v, qual := q } }
  match opc with
  | 1 => .ok (put av a.qual r)
  | 9 => .ok (put (abs32 av) a.qual r)
  | 10 => do
    let th ← phaseStep cx.ts av r.st.theta
    .ok (put th a.qual { r with st := { r.st with theta := th } })
  | 11 => do
    let (r, q) ← core cx en { a with val := av } r
    .ok (put r.st.out.y0 q { r with coreQ := q })
  | _ => do
    let b ← if fldB op 1 3 then .ok { val := BitVec.ofNat 32 (fld op 4 0 32), qual := qFine }
      else operand cx r.w (fld op 4 0 16)
    let bv ← ck b.val
    let q := qMax a.qual b.qual
    match opc with
    | 2 => do .ok (put (← eAdd av bv) q r)
    | 3 => do .ok (put (← eSub av bv) q r)
    | 4 => do .ok (put (← eSub bv av) q r)
    | 5 => do .ok (put (← eMul av bv) q r)
    | 6 => do
      let w := r.w.getD d {}
      .ok (put (← eAdd w.val (← eMul av bv)) (qMax q w.qual) r)
    | 7 => .ok (put (min32 av bv) q r)
    | _ => .ok (put (max32 av bv) q r)

/-- A program up to its END (R263). -/
def runOps (cx : LoopCx) (en : List Byte) : List (List Byte) → Run → Except RunStop Run
  | [], r => .ok r
  | op :: ops, r =>
    if fld op 0 0 8 = 0 then .ok r
    else match opStep cx en op r with
      | .error x => .error x
      | .ok r => runOps cx en ops r

/-- The operation words of an entry. -/
def slOps (e : List Byte) : List (List Byte) := (List.range 16).map fun i => (e.drop (128 + 8 * i)).take 8

/-! Oscillation detectors (R284 to R286). -/

/-- A detector. -/
def oscSt (s : State) (d : Nat) : OscSt := kget {} s.osc d

/-- Places a detector. -/
def setOsc (d : Nat) (x : OscSt) (s : State) : State := { s with osc := kset {} s.osc d x }

/-- A detector's part of a mark: a written configuration applies and clears its counts (R284). -/
def oscMark (s : State) (d : Nat) : State :=
  if !(oscSt s d).dirty then s
  else
    let c : OscCfg := { slot := rd s (OSC_CFG_SLOT d), en := rdB s (OSC_CFG_EN d), mreq := rd s (OSC_CFG_MREQ d)
                        flo := rdWord s (OSC_FLO_V d).addr, fhi := rdWord s (OSC_FHI_V d).addr
                        amp := rdWord s (OSC_AMP_V d).addr, hys := rdWord s (OSC_HYS_V d).addr }
    wr (OSC_STAT_CNT d) 0 (setOsc d { cfg := c } s)

/-- The instant of the crossing of HYS between the last two z, in 1/16 ns, to 1/16 tick (R285). -/
def crossing (x : OscSt) (z : F32) (now tlen : Int) : Int :=
  let a := rat32 x.zPrev
  let b := rat32 z
  let f : Rat := if b = a then 1 else (rat32 x.cfg.hys - a) / (b - a)
  let t : Rat := (x.zAt : Rat) + f * ((now - x.zAt : Int) : Rat)
  (t / (tlen : Rat) + 1 / 2).floor * tlen

/-- A span of 1/16 ns in ticks, as a binary32 number. -/
def inTicks (d tlen : Int) : F32 := of32 ((d : Rat) / (16 * tlen : Int))

/-- What a detector does with CORE operand `v` at `now` (R285): its next state, and frequency and envelope where it
declares. -/
def oscRun (ts : F32) (now tlen : Int) (v : F32) (x : OscSt) : OscSt × Option (F32 × F32) :=
  let alpha := div32 (mul32 (mul32 cTwoPi x.cfg.flo) ts) cEight
  let mean := add32 x.mean (mul32 alpha (sub32 v x.mean))
  let z := sub32 v mean
  let env := max32 x.env (abs32 z)
  let (x, decl) :=
    if x.armedLow && le32 x.cfg.hys z then
      let t := crossing x z now tlen
      let fc := div32 cOne (mul32 (inTicks (t - x.tPrev) tlen) ts)
      let cnt := if le32 x.cfg.flo fc && le32 fc x.cfg.fhi && le32 x.cfg.amp env then x.cnt + 1 else 0
      let hit := decide (cnt = x.cfg.mreq) && !x.declared
      ({ x with tPrev := t, env := 0, armedLow := false, cnt := cnt, declared := x.declared && decide (cnt ≠ 0) || hit },
        if hit then some (fc, env) else none)
    else ({ x with env := env }, none)
  let x := { x with mean := mean, zPrev := z, zAt := now, armedLow := x.armedLow || le32 z (neg32 x.cfg.hys) }
  let late := lt32 (div32 cOne x.cfg.flo) (mul32 (inTicks (now - x.tPrev) tlen) ts)
  (if late then { x with cnt := 0, declared := false } else x, decl)

/-- Feeds the detectors that watch slot `k` with the CORE operand of a completed run. -/
def oscFeed (cx : LoopCx) (k : Nat) (v : F32) (s : State) : State :=
  forUpto 16 s fun s d =>
    let x := oscSt s d
    if !x.cfg.en || x.cfg.slot ≠ k then s
    else
      let (y, decl) := oscRun cx.ts (16 * cx.inp.markAt) cx.inp.tlen v x
      let s := wr (OSC_STAT_CNT d) (min 255 y.cnt) (setOsc d y s)
      match decl with
      | some (fc, env) =>
        fault .loopOsc 0 (k + 256 * d) (wrB (OSC_STAT_DECL d) true
          (wrWord (OSC_ENV_V d).addr env (wrWord (OSC_FREQ_V d).addr fc s)))
      | none => s

/-! The run of the slots in a phase (R265, R266). -/

/-- What LPE_SLOTSTATs shows of a slot's last phase (R287). -/
def slotStat (k : Nat) (ran shed frozen yc ic : Bool) (s : State) : State :=
  let x := slot s k
  wrB (LPE_SLOTSTAT_RAN k) ran (wrB (LPE_SLOTSTAT_SHED k) shed (wrB (LPE_SLOTSTAT_FROZEN k) frozen
    (wrB (LPE_SLOTSTAT_YCLAMP k) yc (wrB (LPE_SLOTSTAT_ICLAMP k) ic
      (wr (LPE_SLOTSTAT_SATRUN k) (min 255 x.satRun) (wr (LPE_SLOTSTAT_QUAL k) x.out.qual.toNat s))))))

/-- The outputs keep their values with quality HELD (R259, R262). -/
def holdOut (k : Nat) (s : State) : State :=
  modSlot k (fun x => { x with out := { x.out with qual := qHeld } }) s

/-- SATRUN after a completed run (R274). -/
def satStep (k lim : Nat) (clamped : Bool) (s : State) : State :=
  if lim = 0 then s
  else if clamped then
    let x := slot s k
    let hit := decide (lim ≤ x.satRun + 1) && !x.satRaised
    let s := modSlot k (fun x => { x with satRun := x.satRun + 1, satRaised := x.satRaised || hit }) s
    if hit then fault .loopSat 2 k s else s
  else modSlot k (fun x => { x with satRun := 0, satRaised := false }) s

/-- REP_LIMIT when the clamped writes of a period reach REP_THR (R278). -/
def repStep (k : Nat) (e : List Byte) (mis : Bool) (s : State) : State :=
  let s := if mis then count LPE_REPMIS_CNT_COUNT s else s
  let x := slot s k
  if slType e = tyRep ∧ slRepThr e ≠ 0 ∧ slRepThr e ≤ x.repClamps ∧ !x.repRaised then
    fault .repLimit 0 k (wrB (LPE_SLOTSTAT_REPLIM k) true (modSlot k (fun x => { x with repRaised := true }) s))
  else s

/-- The run of slot `k` (R257 to R263). -/
def slotRun (inp : PhaseIn) (ts : F32) (k : Nat) (e : List Byte) (s : State) : State :=
  let cx : LoopCx := { inp := inp, slots := s.slots, ts := ts }
  match runOps cx e (slOps e) { st := slot s k } with
  | .error .bad => slotStat k false false true false false (holdOut k s)
  | .error .nonfin =>
    let s := count LPE_NONFIN_CNT_COUNT (wrB (LPE_SLOTSTAT_NONFIN k) true (holdOut k s))
    fault .loopSat 1 k (slotStat k false false false false false s)
  | .ok r =>
    let out := { r.st.out with qual := r.coreQ }
    let s := modSlot k (fun _ => { r.st with out := out, fine := if r.coreQ = qFine then out else r.st.fine }) s
    let s := match r.coreIn with
      | some v => oscFeed cx k v s
      | none => s
    let s := repStep k e r.mis (satStep k (slSatlim e) r.clamped s)
    slotStat k true false false r.clamped r.iclamp s

/-- Slot `k` in a phase: shed (R52), held at its initial state (R266), or run. -/
def slotPhase (inp : PhaseIn) (ts : F32) (shed : BitVec 64) (s : State) (k : Nat) : State :=
  let e := tabIn inp.tabs 0x07 k
  if slType e = tyOff then slotStat k false false false false false s
  else if shed.getLsbD k then slotStat k false true false false false s
  else if slAct e && inp.conv != .deblocked then
    slotStat k false false false false false (modSlot k (slotInit (repN inp.tabs e) e) s)
  else slotRun inp ts k e s

/-- The loop slots that a phase which sheds leaves out (R52). -/
def deferSet (tabs : KeyList (List Byte)) : BitVec 64 :=
  (List.range 64).foldl (fun m k =>
    let e := tabIn tabs 0x07 k
    if slType e ≠ tyOff ∧ slDefer e then m ||| BitVec.ofNat 64 (2 ^ k) else m) 0

/-- The loop engine in one phase (R265): slots with DEFER 0 in ascending order, then those with DEFER 1. In Watch it runs
only with PRECHG 1 (R266). -/
def loopEngine (inp : PhaseIn) (shed : BitVec 64) (s : State) : State :=
  if inp.watch && !rdB s LPE_CFG_PRECHG then s
  else
    let ts := of32 ((inp.tlen : Rat) / 1000000000)
    let ks := List.range 64
    let late := fun k => slDefer (tabIn inp.tabs 0x07 k)
    ((ks.filter fun k => !late k) ++ ks.filter late).foldl (slotPhase inp ts shed) s

/-- The outputs of every slot, as they stand. -/
def slotOuts (s : State) : KeyList SlotOut :=
  forUpto 64 [] fun l k => kset {} l k (slot s k).out

/-- The reference of an arm with its quality (R283); BAD where the map names none. -/
def armRef (inp : PhaseIn) (s : State) (a : Nat) : QVal :=
  let c := fld (tabIn inp.tabs 0x08 0) (2 * a) 0 16
  if 0x200 ≤ c ∧ c ≤ 0x2FF then
    let o := (slot s ((c - 0x200) / 4)).out
    { val := o.y (c % 4), qual := o.qual }
  else {}

/-! Reference mailboxes (R280, R281). -/

/-- A bench writes a mailbox now (R280). -/
def mbxWrite (m : Nat) (v : QVal) (s : State) : State :=
  { s with mbx := kmod {} s.mbx m fun x =>
      if inFence s then { x with late := some v } else { x with written := v, fresh := true } }

/-- A mailbox's bit in LPE_STALE. -/
def isStale (s : State) (m : Nat) : Bool := rdBit s (LPE_STALE_STALE (m / 32)) (m % 32)

/-- A value latched: its last FINE value follows it (R262). -/
def mbxLatched (v : QVal) (x : RefMbx) : RefMbx :=
  { x with latched := v, fine := if v.qual = qFine then some v.val else x.fine }

/-- The latch of a mailbox at a mark (R280, R281): a fresh value; otherwise the value stays, HELD once stale. -/
def mbxMark (s : State) (m : Nat) : State :=
  let x := kget ({} : RefMbx) s.mbx m
  let keep := !x.fresh && isStale s m && decide (rd s LPE_CFG_STALE ≠ 0)
  let v := if keep then { x.written with qual := qMax x.written.qual qHeld } else x.written
  let x := { x with age := if x.fresh then 0 else x.age + 1 }
  -- what a device that waits for TICKIN latches itself serves the comparison alone (R282)
  let y := if waitsTickin s then { x with latched := v } else mbxLatched v x
  let y := match x.late with
    | some w => { y with written := w, fresh := true, late := none }
    | none => { y with fresh := false }
  wrBit (LPE_STALE_STALE (m / 32)) (m % 32) keep { s with mbx := kset {} s.mbx m y }

/-- A mailbox has gone STALE marks without a write (R281). -/
def mbxStale (m : Nat) (s : State) : State :=
  let x := kget ({} : RefMbx) s.mbx m
  let lim := rd s LPE_CFG_STALE
  if lim = 0 || decide (x.age < lim) || isStale s m then s
  else
    let v := { x.latched with qual := qMax x.latched.qual qHeld }
    wrBit (LPE_STALE_STALE (m / 32)) (m % 32) true { s with mbx := kset {} s.mbx m { x with latched := v } }

/-- MAILBOX_STALE (R281). -/
def execMailboxStale (m : Fin 64) (s : State) : Host.Outcome State Fault Refusal := cmd (mbxStale m.val) s

end Sys2Proof.Machine
end

