-- ==== Sys2Proof/Machine/Sequencer.lean ====
section
/-! DEFINITION. The level sequencer's count stage (chapter 10): arm-table fields, what a phase knows of an arm's cells, the
level voltage and arm current, the level range, the ramp with its start level and targets, and the running state of an arm. -/

namespace Sys2Proof.Machine

/-! Arm-table entries (R11, R289, R314). -/

/-- ENABLE. -/
def armOn (e : List Byte) : Bool := fldB e 0 0
/-- NEED. -/
def armNeed (e : List Byte) : Nat := fld e 2 0 12
/-- TRIM: 0 FIXED, 1 CONST_ON, 2 CONST_OFF, 3 NONE. -/
def armTrim (e : List Byte) : Nat := fld e 4 0 2
/-- RAMP. -/
def armRamp (e : List Byte) : Bool := fldB e 4 2
/-- DTC. -/
def armDtc (e : List Byte) : Bool := fldB e 4 3
/-- IINV. -/
def armIinv (e : List Byte) : Bool := fldB e 4 4
/-- MAXCHG. -/
def armMaxchg (e : List Byte) : Nat := fld e 5 0 4
/-- ISRC. -/
def armIsrc (e : List Byte) : Nat := fld e 6 0 16
/-- TON in symbols. -/
def armTon (e : List Byte) : Nat := fld e 8 0 16
/-- TOFF in symbols. -/
def armToff (e : List Byte) : Nat := fld e 10 0 16
/-- ITHR. -/
def armIthr (e : List Byte) : F32 := BitVec.ofNat 32 (fld e 12 0 32)
/-- HYST, KT and BINW in binary64. -/
def armHyst (e : List Byte) : F64 := widen (BitVec.ofNat 32 (fld e 32 0 32))
def armKt (e : List Byte) : F64 := widen (BitVec.ofNat 32 (fld e 36 0 32))
def armBinw (e : List Byte) : F64 := widen (BitVec.ofNat 32 (fld e 40 0 32))
/-- DWELL_MAX. -/
def armDwellMax (e : List Byte) : Nat := fld e 44 0 16
/-- DWELL_HARD. -/
def armDwellHard (e : List Byte) : Nat := fld e 46 0 16
/-- REF_TICKS. -/
def armRefTicks (e : List Byte) : Nat := fld e 48 0 8
/-- REF_CONC. -/
def armRefConc (e : List Byte) : Nat := fld e 49 0 8
/-- RECHG in 0.1 ns. -/
def armRechg (e : List Byte) : Nat := fld e 50 0 16 * 1000
/-- LOSS_SHARE. -/
def armLossShare (e : List Byte) : Bool := fldB e 52 0

/-! Cells as a phase sees them. -/

/-- Cell states (the cell-state table). -/
def stBlock : BitVec 4 := 0
def stBypass : BitVec 4 := 1
def stBypassAlt : BitVec 4 := 2
def stInsert : BitVec 4 := 3
def stInsertNeg : BitVec 4 := 4
def stHold : BitVec 4 := 8

/-- A full-bridge cell. -/
def Cell.fb (c : Cell) : Bool := c.ent.ctype == 1

/-- The contribution of a state to the arm level (R288). -/
def levelOf (st : BitVec 4) : Int := if st = stInsert then 1 else if st = stInsertNeg then -1 else 0

/-- A bypass state. -/
def isBypass (st : BitVec 4) : Bool := st == stBypass || st == stBypassAlt

/-- AVAILABLE at mark n, by the record of the phase (R25). -/
def Cell.avail (c : Cell) : Bool := c.live.availCopy == .available

/-- A cell under a force (R307). -/
def Cell.forced (c : Cell) : Bool := c.dyn.forcedTo.isSome

/-- The assigned cells of a phase: entry, record and force as at mark n, with what the phases before it left (R33). A cell whose refresh
windows end before the phase's window takes part again (R333). -/
def phaseCells (inp : PhaseIn) (s : State) : KeyList Cell :=
  (inp.cells.filter fun p => p.2.ent.avail != .empty).map fun (a, c) =>
    let d := { (cell s a).dyn with forcedTo := c.dyn.forcedTo }
    let done := c.live.availCopy == .refreshing && d.refEnd.any fun e => tickGe inp.window e
    (a, { c with live := { c.live with availCopy := if done then .available else c.live.availCopy }, dyn := d })

/-- The cells of arm `a`. -/
def ofArm (l : KeyList Cell) (a : Nat) : KeyList Cell := l.filter fun p => p.2.ent.arm.toNat == a

/-- The AVAILABLE, unforced cells. -/
def freeCells (l : KeyList Cell) : KeyList Cell := l.filter fun p => p.2.avail && !p.2.forced

/-! The count stage (R291 to R295). -/

/-- What the count stage finds for an arm and window. -/
structure ArmPlan where
  arm     : Nat
  ent     : List Byte
  usable  : Bool
  t       : Nat                   -- symbols of a tick
  vl      : F64
  i       : F64                   -- arm current
  iBad    : Bool                  -- its quality is BAD, or there is none
  ithr    : F64
  r1      : F32
  qual    : BitVec 3
  lam0    : F64
  lam1    : F64
  ls      : Int
  le      : Int
  start   : Int
  dir     : Int
  targets : List Nat
  lmin    : Int
  lmax    : Int
  f       : Int                   -- forced contribution F (R294)
  clamped : Bool
  deriving DecidableEq, Repr

/-- An integer in binary64. -/
def int64f (n : Int) : F64 := of64 n
/-- clamp(v, lo, hi) in binary64. -/
def clamp64 (v lo hi : F64) : F64 :=
  let m := if lt64 v lo then lo else v
  if lt64 hi m then hi else m
/-- round(x) of R291. -/
def round64 (x : F64) : Int := roundAway (rat64 x)

/-- The arm current of a phase (R292): value and whether it counts as BAD. -/
def armCurrent (cx : LoopCx) (e : List Byte) : F32 × Bool :=
  if armIsrc e = 0xFFFF then (0, true)
  else
    let v := (source cx (armIsrc e)).1
    (if armIinv e then neg32 v.val else v.val, decide (v.qual = qBad))

/-- The level voltage VL (R292), 0 where no cell is AVAILABLE. -/
def levelVolt (cx : LoopCx) (a : Nat) : F64 :=
  let n := (source cx (0x410 + a)).1.val
  if n = 0 then 0 else div64 (widen (source cx (0x400 + a)).1.val) (widen n)

/-- Targets of the sub-tick changes `k0 + 1` to `m` (R295). -/
def subTargets (t : Nat) (lam0 lam1 : F64) (ls dir : Int) (k0 m : Nat) : List Nat :=
  (List.range (m - k0)).map fun j =>
    let k := k0 + 1 + j
    let b := of64 ((ls : Rat) + (dir : Rat) * ((k : Rat) - 1 / 2))
    let x := div64 (mul64 (int64f t) (sub64 b lam0)) (sub64 lam1 lam0)
    min (round64 x).toNat (t - 1)

/-- The plan of an enabled arm. `deb`: the converter is DEBLOCKED at mark n. -/
def armPlan (inp : PhaseIn) (cx : LoopCx) (cells : KeyList Cell) (s : State) (a : Nat) : ArmPlan :=
  let e := tabIn inp.tabs 0x01 a
  let x := armDyn s a
  let mine := ofArm cells a
  let free := freeCells mine
  let ref := armRef inp s a
  let vl := levelVolt cx a
  let (i, bad) := armCurrent cx e
  let held := if ref.qual = qHeld then x.heldRun + 1 else 0
  let usable := ref.qual != qBad && (ref.qual != qHeld || decide (held < inp.refHold)) && lt64 0 vl
  let f := (mine.map fun p => match p.2.dyn.forcedTo with
    | some st => levelOf st
    | none => 0).sum
  let lmin : Int := f - ((free.filter fun p => p.2.fb).length : Int)
  let lmax : Int := f + (free.length : Int)
  let t := tickSyms (liveMode s) inp.watch
  let base : ArmPlan := { arm := a, ent := e, usable := usable, t := t, vl := vl, i := widen i, iBad := bad
                          ithr := widen (armIthr e), r1 := ref.val, qual := ref.qual
                          lam0 := int64f x.level, lam1 := int64f x.level, ls := x.level, le := x.level, start := x.level
                          dir := 0, targets := [], lmin := lmin, lmax := lmax, f := f, clamped := false }
  if !usable then base
  else
    let lim := fun (v : F64) => clamp64 v (int64f lmin) (int64f lmax)
    let x1 := div64 (widen ref.val) vl
    let x0 := if armRamp e && !x.first then div64 (widen x.refLast) vl else x1
    let lam1 := lim x1
    let lam0 := lim x0
    let ls := round64 lam0
    let le := round64 lam1
    let m := (le - ls).natAbs
    let dir := (le - ls).sign
    let k0 := m - armMaxchg e
    { base with
      lam0 := lam0, lam1 := lam1, ls := ls, le := le, start := ls + dir * k0, dir := dir
      targets := subTargets t lam0 lam1 ls dir k0 m, clamped := decide (lam1 ≠ x1) || decide (lam0 ≠ x0) }

/-- What the plan of a window does to the arm's running state (R293, R294, R305). -/
def planMark (deb : Bool) (p : ArmPlan) (s : State) : State :=
  let x := armDyn s p.arm
  let s := modArm p.arm (fun x => { x with heldRun := if p.qual = qHeld then x.heldRun + 1 else 0 }) s
  if !deb then s
  else
    let s := modArm p.arm (fun x => { x with unusable := !p.usable, clamped := p.clamped }) s
    let s := if !p.usable && !x.unusable then fault .loopSat 3 p.arm s else s
    if p.clamped then
      let s := count LVS_LCLAMP_CNT_COUNT s
      if x.clamped then s else fault .loopSat 4 p.arm s
    else s

/-- The enabled arms of a phase. -/
def armsOn (inp : PhaseIn) : List Nat := (List.range 12).filter fun a => armOn (tabIn inp.tabs 0x01 a)

/-! The per-arm words of R312. -/

/-- Places bits of a word. -/
def bitsAt (lo : Nat) (v : Nat) : Nat := v * 2 ^ lo

/-- LVS_ARMSTATa, LVS_RESa, LVS_VLa and LVS_REFa of an arm. -/
def lvsWords (p : ArmPlan) (level : Int) (nchg : Nat) (trim neg : Bool) (rho : F64) : List Word :=
  [BitVec.ofNat 32 ((level % 8192).toNat + bitsAt 14 (min 8 nchg) + bitsAt 18 (bitNat trim) + bitsAt 19 (bitNat neg) +
      bitsAt 20 (bitNat p.clamped) + bitsAt 21 (bitNat (!p.usable)) + bitsAt 22 p.qual.toNat),
    of32 (rat64 rho), of32 (rat64 p.vl), p.r1]

/-- The arm current of a mark, kept for the predictions of the next tick (R321). -/
def armMark (cx : LoopCx) (s : State) (a : Nat) : State :=
  let (i, bad) := armCurrent cx (tab s 0x01 a)
  modArm a (fun x => { x with iPrev := x.iMark, iMark := if bad then 0 else i }) s

end Sys2Proof.Machine
end

