-- ==== Sys2Proof/Machine/Selector.lean ====
section
/-! DEFINITION. Cell selection and balancing (chapter 11): pinning, refreshes, keys, the start set, the candidate lists, and the
commands for cells outside the selection. -/

namespace Sys2Proof.Machine

/-- The minimum pulse of a cell in symbols at full rate (R18). -/
def minPulse (c : Cell) : Nat := 2500 + 625 * c.ent.mpClass.toNat

/-- Symbols from a cell's last commanded instant to instant 0 of window `w` (R318). -/
def sinceInst (t : Nat) (w : Tick) (c : Cell) : Option Int :=
  c.dyn.lastInst.map fun (k, sym) => tickDiff w k * t - sym

/-- A pinned cell (R318). -/
def pinned (t : Nat) (w : Tick) (c : Cell) : Bool :=
  match sinceInst t w c with
  | some d => decide (d < minPulse c)
  | none => false

/-- The earliest instant of window `w` that keeps the cell's minimum pulse (R301, R308, R327). -/
def earliest (t : Nat) (w : Tick) (c : Cell) : Nat :=
  match sinceInst t w c with
  | some d => ((minPulse c : Int) - d).toNat
  | none => 0

/-- A refresh whose windows include `w` (R333). -/
def refreshing (w : Tick) (c : Cell) : Bool :=
  match c.dyn.refEnd with
  | some e => !tickGe w e
  | none => false

/-! Refreshes (R331, R332). -/

/-- What the refreshes of an arm come to. -/
structure RefStart where
  started : List Nat := []
  spare   : Int
  conc    : Nat
  hard    : Nat := 0
  defer   : Nat := 0
  deriving DecidableEq, Repr

/-- A due cell, in its turn. -/
def refConsider (e : List Byte) (t : Nat) (w : Tick) (r : RefStart) (p : Nat × Cell) : RefStart :=
  let c := p.2
  let hard := decide (armDwellHard e ≤ c.dyn.dw)
  let ok := !c.forced && !pinned t w c && (hard || (decide (1 ≤ r.spare) && decide (r.conc < armRefConc e)))
  if ok then { r with started := r.started ++ [p.1], spare := r.spare - 1, conc := r.conc + 1, hard := r.hard + bitNat hard }
  else { r with defer := r.defer + 1 }

/-- The refreshes that start in window `w`; `free` are the AVAILABLE, unforced cells. A forced cell may be due too, and does not start. -/
def refStarts (e : List Byte) (t : Nat) (w : Tick) (mine free : KeyList Cell) : RefStart :=
  let due := mine.filter fun p => p.2.avail && p.2.ent.boot && decide (armDwellMax e ≤ p.2.dyn.dw) && !refreshing w p.2
  let ord := due.mergeSort fun a b => decide (b.2.dyn.dw < a.2.dyn.dw) || (decide (a.2.dyn.dw = b.2.dyn.dw) && decide (a.1 ≤ b.1))
  ord.foldl (refConsider e t w)
    { spare := (free.length : Int) - armNeed e, conc := (mine.filter fun p => refreshing w p.2).length }

/-! Keys (R320, R322). -/

/-- What the keys of a region read. -/
structure KeyCx where
  w     : Tick
  i     : F64                       -- arm current, 0.0 where BAD or none
  ts    : F64
  tmean : F64
  ent   : List Byte
  deriving DecidableEq, Repr

/-- The signed inserted time of a cell in a window, in s. -/
def tauOf (c : Cell) (w : Tick) : F64 :=
  match c.dyn.wins.find? fun x => x.window == w with
  | some x => of64 ((x.tau : Rat) / 2500000000)
  | none => 0

/-- Capacitance in F. -/
def capF (c : Cell) : F64 := mul64 (int64f c.ent.capUf.toNat) (of64 (1 / 1000000))

/-- Module temperature in °C (R26). -/
def tmodC (c : Cell) : Int := (c.live.tmod.toNat : Int) + 50

/-- VCAP of the record in V. -/
def vcapV (c : Cell) : F64 := of64 ((c.live.vcap.toNat : Rat) / 8)

/-- σ of a region of polarity `q`. -/
def sigmaOf (x : KeyCx) (q : Int) : F64 := int64f (if le64 0 (mul64 (int64f q) x.i) then 1 else -1)

/-- The inserting state of a region. -/
def insState (q : Int) : BitVec 4 := if 0 < q then stInsert else stInsertNeg

/-- The key of a candidate in the region of polarity `q`. -/
def keyOf (x : KeyCx) (q : Int) (c : Cell) : F64 :=
  let tau := add64 (add64 (tauOf c (x.w - 2)) (tauOf c (x.w - 1))) (mul64 (int64f q) x.ts)
  let v := add64 (vcapV c) (mul64 (div64 x.i (capF c)) tau)
  let p := mul64 (sigmaOf x q) v
  if c.dyn.endState = insState q then
    let h := add64 (armHyst x.ent) (mul64 (armKt x.ent) (sub64 (int64f (tmodC c)) x.tmean))
    sub64 p (if lt64 h 0 then 0 else h)
  else p

/-- A candidate with its key. -/
abbrev Ranked := F64 × Nat × Cell

/-- Order of (p(c), address). -/
def rankLe (a b : Ranked) : Bool := if lt64 a.1 b.1 then true else if lt64 b.1 a.1 then false else decide (a.2.1 ≤ b.2.1)

/-- The candidates of a region in rank order (R323, R324). -/
def ranking (x : KeyCx) (q : Int) (l : KeyList Cell) : List Ranked :=
  (l.map fun p => (keyOf x q p.2, p.1, p.2)).mergeSort rankLe

/-- The bin of a key (R323). -/
def binOf (base binw p : F64) : Nat :=
  let y := div64 (sub64 p base) binw
  if lt64 y 0 then 0 else if le64 (int64f 4095) y then 4095 else (rat64 y).floor.toNat

/-! Selection (R313, R317 to R319, R325 to R327). -/

/-- A command for a cell outside the selection. -/
structure OutCmd where
  addr    : Nat
  st      : BitVec 4
  refresh : Bool := false
  deriving DecidableEq, Repr

/-- What the selector delivers for an arm and window. `enter` lists cells outside the start set from its last rank on,
`leave` the start set in reverse rank order; with a split, those of the positive side, and `enterN`, `leaveN` those of the
negative side. -/
structure Pick where
  q       : Int
  start   : List Nat
  pins    : List Nat
  enter   : List Nat
  leave   : List Nat
  enterN  : List Nat := []
  leaveN  : List Nat := []
  split   : Bool := false
  other   : List OutCmd
  refs    : RefStart
  pinconf : Bool
  words   : List Word              -- SEL_ARMSTATa (SHORT 0), SEL_THRa, SEL_TMEANa, SEL_REFa
  deriving DecidableEq, Repr

/-- The lists of a region: from the rank after the last cell of the start set on, and the start set backwards (R325). -/
def candLists (r : List Ranked) (set : List Nat) (lim : Nat) : List Nat × List Nat :=
  let a := r.map fun x => x.2.1
  let n := (a.reverse.dropWhile fun c => !set.contains c).length
  ((a.drop n).take lim, (((a.take n).filter set.contains).reverse).take lim)

/-- The command of R327 for a cell outside the selection, by its AVAIL at the mark. -/
def outCmd (c : Cell) (addr : Nat) : OutCmd :=
  if !c.ranged then { addr := addr, st := stBlock }
  else match c.live.availCopy with
    | .refreshing => { addr := addr, st := stBypass, refresh := true }
    | .missing => { addr := addr, st := stBypass }
    | .outOfService => { addr := addr, st := stBypass }
    | _ => { addr := addr, st := stBlock }

/-- Mean module temperature of the AVAILABLE cells (R322). -/
def meanTemp (l : KeyList Cell) : F64 :=
  if l.isEmpty then 0 else div64 (int64f ((l.map fun p => tmodC p.2).sum)) (int64f l.length)

/-- The selection of an arm. `deb`: the converter is DEBLOCKED at the mark; otherwise no cell is pinned and no refresh starts
(R318, R338). `trim`: its trim pulse crosses level 0. -/
def select (inp : PhaseIn) (deb trim : Bool) (mine : KeyList Cell) (p : ArmPlan) : Pick :=
  let e := p.ent
  let w := inp.window
  let t := p.t
  let rel := p.start - p.f
  let q : Int := if rel ≠ 0 then rel.sign else if p.le - p.f < 0 then -1 else 1
  let avail := mine.filter fun c => c.2.avail
  let free := freeCells mine
  let refs := if deb then refStarts e t w mine free else { spare := 0, conc := 0 }
  let inRef := fun (c : Nat × Cell) => refreshing w c.2 || refs.started.contains c.1
  let pool := free.filter fun c => !inRef c
  let pins := if deb then (mine.filter fun c => pinned t w c.2).map (·.1) else []
  let cx : KeyCx := { w := w, i := if p.iBad then 0 else p.i, ts := of64 ((inp.tlen : Rat) / 1000000000), tmean := meanTemp avail, ent := e }
  let region := fun (q : Int) => if 0 < q then pool else pool.filter fun c => c.2.fb
  let ranked := ranking cx q (region q)
  let pinIn := (ranked.filter fun x => pins.contains x.2.1 && x.2.2.dyn.endState == insState q).map fun x => x.2.1
  let unp := ranked.filter fun x => !pins.contains x.2.1
  let need : Int := rel.natAbs - pinIn.length
  let k := min need.toNat unp.length
  let set := pinIn ++ (unp.take k).map fun x => x.2.1
  let pinconf := decide (need < 0) || decide ((unp.length : Int) < need)
  let base := sub64 (mul64 (sigmaOf cx q) p.vl) (mul64 (int64f 2048) (armBinw e))
  let bins := (unp.take k).map fun x => binOf base (armBinw e) x.1
  let thr := bins.getLastD 0
  let frm := (bins.filter fun b => b == thr).length
  let split := trim || (decide (p.lmin < p.f) && decide (min p.start p.le < p.f) && decide (p.f < max p.start p.le))
  let sideSet := fun (g : Int) => if g = q then set else
    ((region g).filter fun c => pins.contains c.1 && c.2.dyn.endState == insState g).map (·.1)
  let sideRank := fun (g : Int) => if g = q then ranked else ranking cx g (region g)
  let (en, lv) := if split then candLists (sideRank 1) (sideSet 1) 8 else candLists ranked set 16
  let (enN, lvN) := if split then candLists (sideRank (-1)) (sideSet (-1)) 8 else ([], [])
  let other := (mine.filter fun c => !c.2.forced).filterMap fun c =>
    if !c.2.ranged then some (outCmd c.2 c.1)
    else if inRef c && (c.2.live.availCopy == .available || c.2.live.availCopy == .refreshing) then
      some { addr := c.1, st := stBypass, refresh := true }
    else if !c.2.avail then some (outCmd c.2 c.1)
    else if q < 0 && !c.2.fb then some { addr := c.1, st := stBypass }
    else none
  let nref := (mine.filter fun c => inRef c || c.2.live.availCopy == .refreshing).length
  { q := q, start := set, pins := pins, enter := en, leave := lv, enterN := enN, leaveN := lvN, split := split
    other := other, refs := refs, pinconf := pinconf
    words := [
      BitVec.ofNat 32 (min 4095 avail.length + bitsAt 13 (bitNat split) + bitsAt 14 (bitNat pinconf) +
        bitsAt 16 (min 4095 set.length)),
      BitVec.ofNat 32 (thr + bitsAt 16 (min 4095 frm)),
      of32 (rat64 cx.tmean),
      BitVec.ofNat 32 (min 255 nref + bitsAt 8 (min 255 refs.defer))] }

/-- What a selection does to the cells and the counters: refreshes start in window `w` (R331 to R333), and their AVAIL changes
at the next mark. -/
def pickMark (inp : PhaseIn) (deb : Bool) (p : ArmPlan) (k : Pick) (s : State) : State :=
  let s := modArm p.arm (fun x => { x with selRun := k.words }) s
  if !deb then s
  else
    let s := if k.pinconf then count SEL_PINCONF_CNT_COUNT s else s
    let s := countN SEL_HARDREF_CNT_COUNT k.refs.hard (countN SEL_REFDEF_CNT_COUNT k.refs.defer s)
    k.refs.started.foldl (fun s a =>
      dueAvail a .refreshing (modCell a (fun c => { c with
        dyn := { c.dyn with refEnd := some (inp.window + BitVec.ofNat 32 (armRefTicks p.ent)) } }) s)) s

/-- Capture of the per-arm words of the selector (R339). -/
def selLatch (s : State) : State :=
  let s := wr SEL_LATCH_LSEQ (rd s SEL_LATCH_LSEQ + 1) s
  forUpto 12 s fun s a =>
    let x := armDyn s a
    let w := (x.sel.getD 0 0).toNat + bitsAt 12 (bitNat x.short)
    wrWord (0x40100 + 16 * a) (BitVec.ofNat 32 w) (wrWord (0x40104 + 16 * a) (x.sel.getD 1 0)
      (wrWord (0x40108 + 16 * a) (x.sel.getD 2 0) (wrWord (0x4010C + 16 * a) (x.sel.getD 3 0) s)))

/-- Capture of the per-arm words of the sequencer (R312). -/
def lvsLatch (s : State) : State :=
  let s := wr LVS_LATCH_LSEQ (rd s LVS_LATCH_LSEQ + 1) s
  forUpto 12 s fun s a =>
    let x := armDyn s a
    (List.range 4).foldl (fun s k => wrWord (0x38100 + 16 * a + 4 * k) (x.lvs.getD k 0) s) s

/-- ARM_SHORTFALL at a mark (R335). -/
def shortfall (s : State) : State :=
  let (s, rs) := forUpto 12 (s, ([] : List Raise)) fun (s, rs) a =>
    let e := tab s 0x01 a
    let n := (s.cells.filter fun c => c.2.ent.avail == .available && c.2.ent.arm.toNat == a).length
    let short := armOn e && decide (n < armNeed e)
    let was := (armDyn s a).short
    let s := if short = was then s else modArm a (fun x => { x with short := short }) s
    (s, if short && !was then rs ++ [({ src := .armShortfall, detail := BitVec.ofNat 16 a } : Raise)] else rs)
  raiseAll rs (setActive .armShortfall ((List.range 12).any fun a => (armDyn s a).short) s)

/-! Prediction (R321). -/

/-- The predicted VCAP of a cell's record for tick `n`, in counts. -/
def predictVcap (i : F32) (n : Tick) (c : Cell) : Nat :=
  let v := add64 (vcapV c) (mul64 (div64 (widen i) (capF c)) (tauOf c (n - 1)))
  (max 0 (min 65535 (roundAway (rat64 v * 8)))).toNat

end Sys2Proof.Machine
end

