-- ==== Sys2Proof/Machine/Assign.lean ====
section
/-! DEFINITION. The assignment stage (chapter 10): delays and instants, changes at the mark, sub-tick changes, the trim pulse, the
volt-second account, and the slots of every cell with what they leave behind. Effective instants count quarters of a full-rate
symbol. -/

namespace Sys2Proof.Machine

/-- A transition placed on a cell: commanded symbol, state entered, effective instant, and whether it is a change of the
staircase level (R296) and not an edge of the trim pulse. -/
structure Tr where
  addr  : Nat
  inst  : Nat
  st    : BitVec 4
  eff   : Int
  delta : Int := 0
  deriving DecidableEq, Repr

/-- What the assignment stage has placed so far. -/
structure Asg where
  trs    : List Tr := []
  flip   : List Nat := []        -- cells whose loss-sharing toggle flips (R329)
  cut    : Nat := 0              -- R300
  nocand : Nat := 0              -- R303
  nchg   : Nat := 0
  deriving DecidableEq, Repr

/-- DTM of a cell in quarter symbols (R299): DT_MEAS × 20 ns, or the floor of its DT_CLASS. -/
def dtm4 (c : Cell) : Nat :=
  if c.live.dtMeas = 0 then [3750, 6250, 8750, 12500].getD c.ent.dtClass.toNat 3750 else 50 * c.live.dtMeas.toNat

/-- The effective delay of a transition in quarter symbols (R299). -/
def edgeDelay (p : ArmPlan) (c : Cell) (old new : BitVec 4) : Int :=
  let dl := levelOf new - levelOf old
  if !armDtc p.ent || old == stBlock || dl == 0 then 0
  else if p.iBad || lt64 (abs64 p.i) p.ithr then (dtm4 c : Int) / 2
  else if le64 p.ithr p.i then (if 0 < dl then 0 else dtm4 c)
  else (if 0 < dl then dtm4 c else 0)

/-- The state of an entry into bypass (R329), and whether the toggle flips. -/
def bypassEntry (e : List Byte) (c : Cell) (refresh : Bool) : BitVec 4 × Bool :=
  if refresh || !c.fb || c.ent.boot || !armLossShare e then (stBypass, false)
  else (if c.dyn.toggle then stBypassAlt else stBypass, true)

/-- Places a level change or another change of state of a cell at a commanded symbol. `cut`: it is a change at the mark, or one cut there,
which counts where delays are compensated (R300; DEDUCED, log entry 72). -/
def Asg.put (g : Asg) (p : ArmPlan) (addr : Nat) (c : Cell) (inst : Nat) (st : BitVec 4) (flips cut : Bool) : Asg :=
  let d := edgeDelay p c c.dyn.endState st
  { g with
    trs := g.trs ++ [{ addr := addr, inst := inst, st := st, eff := 4 * inst + d, delta := levelOf st - levelOf c.dyn.endState }]
    flip := if flips then g.flip ++ [addr] else g.flip
    cut := g.cut + bitNat (cut && armDtc p.ent) }

/-- Whether a cell has a transition in the window already (R301, R302). -/
def Asg.taken (g : Asg) (addr : Nat) : Bool := g.trs.any fun x => x.addr == addr

/-- A forced cell (R308). -/
def forcedStep (p : ArmPlan) (w : Tick) (first : Bool) (g : Asg) (x : Nat × Cell) : Asg :=
  match x.2.dyn.forcedTo with
  | some st =>
    let ci := earliest p.t w x.2
    if x.2.ranged && (decide (st ≠ x.2.dyn.endState) || first) && decide (ci < p.t) then
      g.put p x.1 x.2 ci st false (ci == 0)
    else g
  | none => g

/-- A cell outside the selection (R327, R333). -/
def otherStep (p : ArmPlan) (w : Tick) (first : Bool) (cells : KeyList Cell) (g : Asg) (o : OutCmd) : Asg :=
  let c := kget ({} : Cell) cells o.addr
  let cur := c.dyn.endState
  if !c.ranged then g
  else if o.st = stBlock then
    (if cur ≠ stBlock ∨ first then g.put p o.addr c 0 stBlock false true else g)
  else
    let stands := if o.refresh then decide (cur = stBypass) else isBypass cur
    let ci := earliest p.t w c
    if stands || decide (p.t ≤ ci) then g
    else
      let (st, fl) := bypassEntry p.ent c o.refresh
      g.put p o.addr c ci st fl (ci == 0)

/-- The changes at the mark of the unpinned candidates (R317, R318, R300). -/
def markStep (p : ArmPlan) (k : Pick) (g : Asg) (x : Nat × Cell) : Asg :=
  let c := x.2
  let ins := insState k.q
  if c.forced || !c.ranged || k.pins.contains x.1 || k.other.any (fun o => o.addr == x.1) then g
  else if k.start.contains x.1 then
    (if c.dyn.endState = ins then g else g.put p x.1 c 0 ins false true)
  else if isBypass c.dyn.endState then g
  else
    let (st, fl) := bypassEntry p.ent c false
    g.put p x.1 c 0 st fl true

/-- The side of level 0 a change or pulse lies on (R326): true for the positive side. -/
def sideOf (k : Pick) (f lv dn : Int) : Bool :=
  if !k.split then decide (0 < k.q) else if 0 < dn then decide (f ≤ lv) else decide (f < lv)

/-- The list for a change in direction `dn` on a side, the state it works on, and whether it enters the inserting state. -/
def roleOf (k : Pick) (pos : Bool) (dn : Int) : List Nat × BitVec 4 × Bool :=
  let sd := if pos then stInsert else stInsertNeg
  let ent := decide (0 < dn) == pos
  let l := if !k.split || pos then (if ent then k.enter else k.leave) else (if ent then k.enterN else k.leaveN)
  (l, sd, ent)

/-- round(target − d) with d in quarter symbols: the commanded symbol, and whether it was cut at the mark (R300). -/
def instantOf (target : Nat) (d : Int) : Nat × Bool :=
  let x : Rat := (target : Rat) - (d : Rat) / 4
  if x < 0 then (0, true) else ((roundAway x).toNat, false)

/-- One sub-tick change (R301 to R303). -/
def subStep (p : ArmPlan) (k : Pick) (w : Tick) (cells : KeyList Cell) (gl : Asg × Int) (target : Nat) : Asg × Int :=
  let (g, lv) := gl
  let (l, sd, ent) := roleOf k (sideOf k p.f lv p.dir) p.dir
  let try_ := fun (a : Nat) =>
    let c := kget ({} : Cell) cells a
    let cur := c.dyn.endState
    let new := if ent then sd else stBypass
    let (ci, cut) := instantOf target (edgeDelay p c cur new)
    let fits := if ent then isBypass cur || cur == stBlock else cur == sd
    if g.taken a || !fits || decide (ci < earliest p.t w c) then none
    else
      let (st, fl) := if ent then (sd, false) else bypassEntry p.ent c false
      some (g.put p a c ci st fl cut)
  match l.findSome? try_ with
  | some g => ({ g with nchg := g.nchg + 1 }, lv + p.dir)
  | none => ({ g with nocand := g.nocand + 1 }, lv)

/-- The level at the end of window w − 1 (R303). -/
def levelBefore (mine : KeyList Cell) : Int := (mine.map fun x => levelOf x.2.dyn.endState).sum

/-- B in quarter level·symbols (R296). -/
def area4 (p : ArmPlan) (l0 : Int) (trs : List Tr) : Int :=
  let t4 : Int := 4 * (p.t : Int)
  (trs.map fun (x : Tr) => x.delta * (t4 - min x.eff t4)).sum + l0 * t4

/-- A of R296. -/
def demand (p : ArmPlan) (rho : F64) : F64 :=
  add64 (div64 (mul64 (int64f p.t) (add64 p.lam0 p.lam1)) (int64f 2)) rho

/-- Effective start and width of the trim pulse (R290, R297). -/
def trimWindow (p : ArmPlan) (w : Tick) (mag : F64) (last : Option (Tick × Int)) : Option (F64 × F64) :=
  let t := int64f p.t
  let half := fun (x : F64) => div64 x (int64f 2)
  let top := p.t - 32
  match armTrim p.ent with
  | 0 =>
    let wd := if lt64 (int64f top) mag then int64f top else mag
    some (sub64 (half t) (half wd), wd)
  | 1 =>
    let ton := int64f (min (armTon p.ent) top)
    if lt64 mag ton then none else some (sub64 (half t) (half ton), ton)
  | 2 =>
    let g := match last with
      | some (k, eff) => of64 (((eff + 4 * (min (armToff p.ent) top : Nat) + tickDiff k w * (4 * p.t) : Int) : Rat) / 4)
      | none => int64f 16
    let s := if lt64 g (int64f 16) then int64f 16 else g
    let lim := sub64 t (int64f 16)
    if le64 lim s then none
    else
      let room := sub64 lim s
      some (s, if lt64 room mag then room else mag)
  | _ => none

/-- A trim pulse: its cell, its two edges, and its effective area in quarter level·symbols. -/
structure Trim where
  first  : Tr
  second : Tr
  flips  : Bool
  area4  : Int
  cut    : Nat                   -- edges cut at the mark (R298, R300)
  deriving DecidableEq, Repr

/-- The trim pulse on the first eligible cell of its sign (R297, R298, R301, R302). -/
def placeTrim (p : ArmPlan) (k : Pick) (w : Tick) (cells : KeyList Cell) (g : Asg) (l0 : Int) (ev start wd : F64) : Option Trim :=
  let dn : Int := if lt64 0 ev then 1 else -1
  let lv := l0 + ((g.trs.filter fun x => le64 (of64 ((x.eff : Rat) / 4)) start).map (·.delta)).sum
  let (l, sd, ent) := roleOf k (sideOf k p.f lv dn) dn
  l.findSome? fun a =>
    let c := kget ({} : Cell) cells a
    let cur := c.dyn.endState
    let fits := if ent then isBypass cur else cur == sd
    let (byp, fl) := bypassEntry p.ent c false
    let n1 := if ent then sd else byp
    let n2 := if ent then byp else sd
    let d1 := edgeDelay p c cur n1
    let d2 := edgeDelay p c n1 n2
    let q := fun (d : Int) => of64 ((d : Rat) / 4)
    let x1 := sub64 start (q d1)
    let x2 := sub64 (add64 start wd) (q d2)
    let c1 := (max 0 (round64 x1)).toNat
    let c2 := (max 0 (min (p.t - 1 : Int) (round64 x2))).toNat
    if g.taken a || !fits || decide (c2 < c1 + minPulse c) || decide (c1 < earliest p.t w c) then none
    else
      let e1 := 4 * (c1 : Int) + d1
      let e2 := 4 * (c2 : Int) + d2
      some { first := { addr := a, inst := c1, st := n1, eff := e1 }, second := { addr := a, inst := c2, st := n2, eff := e2 }
             flips := fl, area4 := dn * (e2 - e1), cut := bitNat (lt64 x1 0) + bitNat (lt64 x2 0) }

/-- The level at the end of the window. -/
def levelAfter (mine : KeyList Cell) (trs : List Tr) : Int :=
  (mine.map fun x => match (trs.filter fun y => y.addr == x.1).getLast? with
    | some y => levelOf y.st
    | none => levelOf x.2.dyn.endState).sum

/-- What stands before the trim pulse: the forced cells, those outside the selection, the changes at the mark and the sub-tick changes. -/
def placeChanges (w : Tick) (mine : KeyList Cell) (p : ArmPlan) (k : Pick) (first : Bool) : Asg :=
  let g := mine.foldl (forcedStep p w first) {}
  let g := k.other.foldl (otherStep p w first mine) g
  let g := mine.foldl (markStep p k) g
  (p.targets.foldl (subStep p k w mine) (g, levelBefore mine + (g.trs.map (·.delta)).sum)).1

/-- E of R296. -/
def surplus (p : ArmPlan) (rho : F64) (mine : KeyList Cell) (g : Asg) : F64 :=
  sub64 (demand p rho) (of64 ((area4 p (levelBefore mine) g.trs : Rat) / 4))

/-- Effective start and width of the trim pulse the arm asks for, if any. -/
def trimAsked (p : ArmPlan) (w : Tick) (ev : F64) (last : Option (Tick × Int)) : Option (F64 × F64) :=
  if !p.usable || armTrim p.ent = 3 || rat64 ev = 0 then none else trimWindow p w (abs64 ev) last

/-- The trim pulse a window asks for crosses level 0 (R326): from the level at its start it goes to the side away from the region. -/
def trimCrosses (w : Tick) (mine : KeyList Cell) (p : ArmPlan) (k : Pick) (x : ArmDyn) : Bool :=
  let g := placeChanges w mine p k (!x.on)
  let ev := surplus p x.rho mine g
  match trimAsked p w ev x.trimEnd with
  | none => false
  | some (start, _) =>
    let lv := levelBefore mine + ((g.trs.filter fun x => le64 (of64 ((x.eff : Rat) / 4)) start).map (·.delta)).sum
    let peak := lv - p.f + (if lt64 0 ev then 1 else -1)
    decide (k.q * peak < 0)

/-- The selection of an arm with the list halves a crossing of level 0 asks for (R326). -/
def pickArm (inp : PhaseIn) (deb : Bool) (mine : KeyList Cell) (p : ArmPlan) (s : State) : Pick :=
  let k := select inp deb false mine p
  if deb && !k.split && decide (p.lmin < p.f) && trimCrosses inp.window mine p k (armDyn s p.arm) then select inp deb true mine p else k

/-- The assignment stage of an arm in a DEBLOCKED window (R302, R296): what it places, and the arm's state and counters. -/
def assignArm (inp : PhaseIn) (mine : KeyList Cell) (p : ArmPlan) (k : Pick) (s : State) : Asg × State :=
  let x := armDyn s p.arm
  let w := inp.window
  let g := placeChanges w mine p k (!x.on)
  let ev := surplus p x.rho mine g
  let trim := match trimAsked p w ev x.trimEnd with
    | some (st, wd) => placeTrim p k w mine g (levelBefore mine) ev st wd
    | none => none
  let (g, area, tend) := match trim with
    | some z => ({ g with
        trs := g.trs ++ [z.first, z.second], flip := if z.flips then g.flip ++ [z.first.addr] else g.flip
        cut := g.cut + (if armDtc p.ent then z.cut else 0) }, z.area4, some (w, z.second.eff))
    | none => (g, 0, x.trimEnd)
  let t := int64f p.t
  let r := sub64 ev (of64 ((area : Rat) / 4))
  let rho := if !p.usable then x.rho else if armTrim p.ent = 3 then 0 else clamp64 r (neg64 t) t
  let clip := p.usable && armTrim p.ent != 3 && decide (rho ≠ r)
  let level := levelAfter mine g.trs
  let s := countN LVS_NOCAND_CNT_COUNT g.nocand (countN LVS_DTCUT_CNT_COUNT g.cut s)
  let s := if clip then count LVS_RESCLIP_CNT_COUNT s else s
  let s := modArm p.arm (fun x => { x with
    level := level, rho := rho, trimEnd := tend, on := true, first := !p.usable
    refLast := if p.usable then p.r1 else x.refLast
    lvsRun := lvsWords p level g.nchg trim.isSome (decide (area < 0)) rho }) s
  (g, s)

/-- The status of an arm in a phase that is not DEBLOCKED (R305, R338). -/
def idleArm (p : ArmPlan) (s : State) : State :=
  modArm p.arm (fun x => { x with lvsRun := lvsWords p 0 0 false false x.rho }) s

/-! The slots (R146, R148, R304, R327). -/

/-- Keeps what a window was built with; the newest 4 windows stay. -/
def addWin (e : WinEntry) (c : Cell) : Cell :=
  { c with dyn := { c.dyn with wins := (e :: c.dyn.wins.filter fun x => x.window != e.window).take 4 } }

/-- The high side is on in a state (R330). -/
def highSide (c : Cell) (st : BitVec 4) : Bool := st == stInsert || (c.fb && (st == stInsertNeg || st == stBypassAlt))

/-- What a cell does through a window of `t4` quarter symbols: signed inserted time, high side on at any time, state at the end,
and the last effective instant (R320, R330). -/
def windowRun (c : Cell) (t4 : Int) (trs : List Tr) : Int × Bool × BitVec 4 × Int :=
  let ord := trs.mergeSort fun a b => decide (a.eff ≤ b.eff)
  let (tau, high, st, pos) := ord.foldl (fun (tau, high, st, pos) x =>
    let y := min (max x.eff pos) t4
    (tau + levelOf st * (y - pos), high || (decide (pos < y) && highSide c st), x.st, y))
    ((0 : Int), false, c.dyn.endState, (0 : Int))
  (tau + levelOf st * (t4 - pos), high || (decide (pos < t4) && highSide c st), st, pos)

/-- The dwell count at the end of a window (R330, R336). -/
def dwellEnd (ent : List Byte) (high : Bool) (byp : Nat) (c : Cell) : Nat :=
  if !c.ent.boot || c.forced then c.dyn.dw
  else if armRechg ent ≤ byp then 0 else c.dyn.dw + bitNat high

/-- The slot of a cell in a DEBLOCKED window and the cell after it. PSET is 0: no rule names another source (DESIGN CHOICE, log
entry 55). -/
def slotOf_ (ent : List Byte) (w : Tick) (t : Nat) (trs : List Tr) (refresh flip : Bool) (c : Cell) : SlotCmd × Cell :=
  let base : SlotCmd := { stateA := stHold, instA := 0x3FFF, dtClass := c.ent.dtClass, force := c.forced, refresh := refresh }
  let seq := if trs.isEmpty then c.dyn.seq else c.dyn.seq + 1
  let ord := trs.mergeSort fun a b => decide (a.inst ≤ b.inst)
  let cmd := match ord with
    | [] => base
    | [a] => { base with stateA := a.st, instA := BitVec.ofNat 14 a.inst }
    | a :: b :: _ => { base with
        stateA := a.st, instA := BitVec.ofNat 14 a.inst, stateB := b.st, instB := BitVec.ofNat 14 b.inst }
  let t4 : Int := 4 * t
  let (tau, high, st, pos) := windowRun c t4 trs
  let byp := if st ≠ stBypass then 0 else if trs.isEmpty then c.dyn.bypSyms + 16 * t else (4 * (t4 - pos)).toNat
  let c' := { c with dyn := { c.dyn with
    seq := seq, endState := st, toggle := c.dyn.toggle != flip, bypSyms := byp, dw := dwellEnd ent high byp c
    lastInst := match ord.getLast? with
      | some x => some (w, x.inst)
      | none => c.dyn.lastInst } }
  ({ cmd with seq := seq }, addWin { window := w, tau := tau, endSt := st, ntrans := min 2 trs.length, forced := c.forced } c')

/-- The slot of a cell outside DEBLOCKED, or of one that is not ranged: BLOCK at instant 0 (R142, R148). In a DEBLOCKED window it is a
commanded instant, which pins the cell once it has been ranged (R318). -/
def slotBlock (deb : Bool) (w : Tick) (c : Cell) : SlotCmd × Cell :=
  let seq := if c.ranged then c.dyn.seq + 1 else c.dyn.seq
  let cmd : SlotCmd := { dtClass := c.ent.dtClass, force := c.forced, seq := if c.ranged then seq else 0 }
  let c' := { c with dyn := { c.dyn with seq := seq, endState := stBlock, lastInst := if deb then some (w, 0) else none, bypSyms := 0 } }
  (cmd, addWin { window := w, endSt := stBlock, ntrans := 1, forced := c.forced } c')

/-- The slots of every assigned cell in a phase and the state after it. -/
def buildSlots (inp : PhaseIn) (deb : Bool) (cells : KeyList Cell) (g : List Tr) (flip : List Nat) (refr : List Nat) (t : Nat)
    (s : State) : KeyList SlotCmd × State :=
  cells.foldl (fun (l, s) (x : Nat × Cell) =>
    let (a, c) := x
    let (cmd, d) :=
      if deb && c.ranged then
        slotOf_ (tabIn inp.tabs 0x01 c.ent.arm.toNat) inp.window t (g.filter fun y => y.addr == a) (refr.contains a)
          (flip.contains a) c
      else slotBlock deb inp.window c
    let keep := (cell s a).dyn
    (kset {} l a cmd, modCell a (fun old => { old with dyn := { d.dyn with
      refEnd := keep.refEnd, forcedTo := keep.forcedTo } }) s)) ([], s)

/-- The chain of a compute phase from the sequencer to the slots (R34, R338). -/
def switching (inp : PhaseIn) (s : State) : KeyList SlotCmd × State :=
  let deb := decide (inp.conv = .deblocked)
  let runs := !inp.watch || rdB s LPE_CFG_PRECHG
  let cx : LoopCx := { inp := inp, slots := s.slots, ts := 0 }
  let cells := phaseCells inp s
  let t := tickSyms (liveMode s) inp.watch
  let arms := if runs then armsOn inp else []
  let (g, fl, refr, s) := arms.foldl (fun (g, fl, refr, s) a =>
    let mine := ofArm cells a
    let p := armPlan inp cx cells s a
    let s := planMark deb p s
    let k := pickArm inp deb mine p s
    let s := pickMark inp deb p k s
    if deb then
      let (x, s) := assignArm inp mine p k s
      (g ++ x.trs, fl ++ x.flip, refr ++ (k.other.filter (·.refresh)).map (·.addr), s)
    else (g, fl, refr, idleArm p s)) (([] : List Tr), ([] : List Nat), ([] : List Nat), s)
  buildSlots inp deb cells g fl refr t s

/-- A window without a frame (R53, R306): every cell held its state and made no transition, and the arms stand as before the
window; SEQ values stay spent, and what was raised stays raised. A cell that a commit has put at the address since then starts
blank (R601) and takes nothing back, nor does an arm whose levels have been discarded since (R305). -/
def lostWindow (w : Tick) (deb : Bool) (tabs0 : KeyList (List Byte)) (cells0 : KeyList Cell) (arms0 : KeyList ArmDyn) (t : Nat)
    (s : State) : State :=
  let s := cells0.foldl (fun s (x : Nat × Cell) =>
    if (cell s x.1).ent.serial ≠ x.2.ent.serial then s
    else modCell x.1 (fun c =>
      let o := x.2.dyn
      let st := o.endState
      let byp := if st = stBypass then o.bypSyms + 16 * t else 0
      let c := { c with dyn := { c.dyn with
        endState := st, lastInst := o.lastInst, toggle := o.toggle, bypSyms := byp
        dw := if deb then dwellEnd (tabIn tabs0 0x01 c.ent.arm.toNat) (highSide c st) byp { c with dyn := { c.dyn with dw := o.dw } }
          else o.dw } }
      addWin { window := w, tau := levelOf st * (4 * t), endSt := st, forced := c.forced } c) s) s
  forUpto 12 s fun s a =>
    let o : ArmDyn := kget {} arms0 a
    modArm a (fun x => if x.first && !o.first then x else { x with
      level := o.level, rho := o.rho, refLast := o.refLast, trimEnd := o.trimEnd, on := o.on, first := o.first }) s

end Sys2Proof.Machine
end

