-- ==== Sys2Proof/Machine/Phase.lean ====
section
/-! DEFINITION. Compute phases and their frames (chapter 02, R140 to R148, R386): what a phase computes, the frames of a window,
launching, slips, overruns and shedding, the digest, and the injected block set. -/

namespace Sys2Proof.Machine

/-! Rate changes as frames see them (R61 to R63, R137, R144). -/

/-- The mark `k` ticks after the newest one is the switch mark or lies beyond it. -/
def beyondSwitch (s : State) (k : Nat) : Bool :=
  match rateSwitch s with
  | some (_, t) => decide (t ≤ s.markAt + k * tickLen s)
  | none => false

/-- RCD of a frame for the window that opens `k` ticks after the newest mark (R141). -/
def rcdOf (s : State) (k : Nat) : Nat :=
  match rateSwitch s with
  | none => 0
  | some (_, t) =>
    let d := (t - (s.markAt + k * tickLen s)) / tickLen s
    if d ≤ 15 then d else 0

/-- Converter state a frame launched now carries (R141, R142, R347). -/
def cstateNow (s : State) (c : ConvState) : Nat :=
  if s.fcl.superseded && c != .blocked && c != .tripped then (if s.fcl.toTrip then 5 else 4) else c.code

/-! Frames of a window (R140 to R148). -/

/-- The star lanes that run. -/
def lanesEn (s : State) : List Nat := (List.range 64).filter (laneRuns s)

/-- The frame of one lane: `f` fixes the header but for lane and PLANVER, `disc` the lanes with discovery frames. -/
def laneFrame (s : State) (f : Header) (slots : KeyList SlotCmd) (mbx : KeyList MbxFrame) (disc : List Nat) (l : Nat) : List Byte :=
  frameBytes { f with lane := l, planVer := (lane s l).planVer, ftype := if disc.contains l then 2 else f.ftype }
    (fun k => kget ({} : SlotCmd) slots (128 * l + k)) (kget ({} : MbxFrame) mbx l)

/-- The header of the frames of an ended or ending phase, as they would leave now. -/
def phaseHeader (s : State) (p : Phase) : Header :=
  { ftype := 1, lane := 0, mode := liveMode s, watch := p.watch, etick := p.window, cstate := cstateNow s s.conv, planVer := 0
    rcd := rcdOf s (tickDiff p.window s.tick).toNat, blockAll := s.fcl.superseded }

/-- Sends the frames of a window on every enabled lane (R43) and keeps their headers (R124). A STANDBY or RESYNC device
transmits none (R35). The window's frames end the run of windows without a frame (R54). -/
def sendFrames (w : Tick) (f : Header) (slots : KeyList SlotCmd) (mbx : KeyList MbxFrame) (disc : List Nat) (s : State) : State :=
  let s := (lanesEn s).foldl (fun s l =>
    let b := laneFrame s f slots mbx disc l
    let s := modLane l (fun x => { x with headers := ((w, b.take 24) :: x.headers).take 3 }) s
    if commands s && lineOn s l then emit (.frame l b) s else s) s
  let s := { s with
    sentWin := some w, misses := 0, missDone := false, frameEnd := s.time + symNs s.watch (frameLen (liveMode s))
    dpx := { s.dpx with unsent := false } }
  wr TCK_STATUS_MISSRUN 0 s

/-- The slots of a frame built by the tick engine: BLOCK at instant 0 with SEQ 0 (R63, R67, R148). -/
def engineSlots (w : Tick) (s : State) : KeyList SlotCmd × State :=
  s.cells.foldl (fun (l, s) (x : Nat × Cell) =>
    let c := x.2
    if c.ent.avail == .empty then (l, s)
    else
      let cmd : SlotCmd := { dtClass := c.ent.dtClass, force := c.forced }
      (kset {} l x.1 cmd, modCell x.1 (fun c => addWin { window := w, endSt := stBlock, ntrans := 1, forced := c.forced }
        { c with dyn := { c.dyn with endState := stBlock, lastInst := none, bypSyms := 0 } }) s)) ([], s)

/-- The operations queued for the lanes, taken for window `w`, whose frames carry ETICK `e` (R168). -/
def takeOps (w e : Tick) (ls : List Nat) (s : State) : KeyList MbxFrame × List (Nat × MbxOp) × State :=
  ls.foldl (fun (m, ops, s) l =>
    match takeOp l w e s with
    | (some (f, o), s) => (kset {} m l f, ops ++ [(l, o)], s)
    | (none, s) => (m, ops, s)) (([] : KeyList MbxFrame), ([] : List (Nat × MbxOp)), s)

/-- The frames the tick engine builds for window `w` without a phase (R63, R67): the switch-mark window carries the new rate,
number and state (R144). -/
def engineLaunch (w : Tick) (s : State) : State :=
  let sw := if beyondSwitch s 1 then rateSwitch s else none
  let (etick, watch, conv) := match sw with
    | some (toW, t) =>
      let len := if toW then 100000 else tickNs s.clk.applied
      (BitVec.ofNat 32 (t / len), toW,
        if toW && s.conv == .ready then ConvState.watch else if !toW && s.conv == .watch then .ready else s.conv)
    | none => (w, s.watch, s.conv)
  let (mbx, ops, s) := takeOps w etick (lanesEn s) s
  let (slots, s) := engineSlots w s
  let f : Header := {
    ftype := 3, lane := 0, mode := liveMode s, watch := watch, etick := etick, cstate := cstateNow s conv, planVer := 0
    rcd := if sw.isSome then 0 else rcdOf s 1, blockAll := s.fcl.superseded }
  opsSent ops (sendFrames w f slots mbx [] s)

/-! A window without a frame (R49, R53, R388). -/

/-- Takes a window back to what a phase started from (R53, R306). -/
def takeBack (c : Checkpoint) (s : State) : State := lostWindow c.window c.deb c.inp.tabs c.cells c.arms c.syms s

/-- A phase's window is taken back, unless it has been already. -/
def takeBackPhase (p : Phase) (s : State) : State := if p.taken then s else takeBack p.back s

/-- The loss of the running phase's window has become certain before the phase ends: the window is taken back now, so that nothing
reads what the late phase computed for it (R49, R53). A device that follows is late by itself only (R55). -/
def loseRunning (s : State) : State :=
  match s.run with
  | none => s
  | some p => if p.taken || follows s then s else takeBack p.back { s with run := some { p with lost := true, taken := true } }

/-- A window that R388 keeps from being sent is taken back and counted neither towards MISS_LIMIT nor as TICK_OVERRUN
(R389). -/
def unsentWindow (p : Phase) (s : State) : State :=
  requeue p.mbxOps p.disc p.window p.watch (takeBackPhase p (count TCK_OVR_CNT_COUNT { s with sentWin := some p.window }))

/-- A window is lost: counted, taken back, its mailbox operations queued again (R49, R53, R54). TICK_OVERRUN is raised, but where
MISS_LIMIT is reached: there the raise is MISS_LIMIT_REACHED's, at the same instant. -/
def overrun (p : Phase) (s : State) : State :=
  if s.dpx.unsent then unsentWindow p s
  else if follows s then fault .tickOverrun 1 0 (count TCK_OVR_CNT_COUNT s)
  else
    let s := count TCK_OVR_CNT_COUNT s
    let s := requeue p.mbxOps p.disc p.window p.watch (takeBackPhase p s)
    let s := { s with misses := s.misses + 1, sentWin := some p.window }
    let s := wr TCK_STATUS_MISSRUN (min 3 s.misses) s
    if s.misses = rd s TCK_CFG_MISS_LIMIT && !s.missDone then s else fault .tickOverrun 1 0 s

/-- The run of windows without a frame has reached MISS_LIMIT (R54): a BLOCK reaction whatever the severity. -/
def missLimit (s : State) : State :=
  if s.missDone || decide (s.misses < rd s TCK_CFG_MISS_LIMIT) || follows s then s
  else raiseSrc { src := .tickOverrun, reason := 2, forced := 4 } { s with missDone := true }

/-! The start of a phase (R33, R34, R50). -/

/-- The mailboxes of a discovery tick or an ordinary one (R160, R168). -/
def fillMailboxes (inp : PhaseIn) (s : State) : KeyList MbxFrame × List (Nat × MbxOp) × List Nat × State :=
  let disc := if discTick inp.tabs inp.conv inp.window then (lanesEn s).filter fun l => freeBits s inp.cells l != 0 else []
  let (m, s) := disc.foldl (fun (m, s) l =>
    let (f, s) := discMailbox l inp.window (freeBits s inp.cells l) inp.watch s
    (kset {} m l f, s)) (([] : KeyList MbxFrame), s)
  let (m2, ops, s) := takeOps inp.window inp.window ((lanesEn s).filter fun l => !disc.contains l) s
  (m2.foldl (fun m x => kset {} m x.1 x.2) m, ops, disc, s)

/-- What a mailbox of the active device does to the tables of a device in shadow (R385): ranging values, PLANVER, tags and the
discovery window. -/
def followMbx (w : Tick) (watch : Bool) (l : Nat) (m : MbxFrame) (s : State) : State :=
  let s := modLane l (fun x => { x with nextTag := m.tag + 1 }) s
  let d := m.data
  let store := fun (a txo ds : Nat) (c : Cell) => { c with
    ent := { c.ent with txOffset := BitVec.ofNat 16 txo, dsDelay := BitVec.ofNat 16 ds, rangeTick := w }
    dyn := if a = 1 then { c.dyn with confirm := some { apply := m.arg } }
      else { c.dyn with holdTill := some m.arg, acc := 0, cnt := 0 } }
  match m.op.toNat with
  | 1 =>
    let s := modLane l (fun x => { x with planVer := x.planVer + 1 }) s
    (match s.cells.find? fun c => c.2.ent.serial.toNat == fld d 0 0 64 with
    | some (a, _) => modCell a (store 1 (fld d 9 0 16) (fld d 13 0 16)) s
    | none => s)
  | 2 => modCell (128 * l + m.slot.toNat) (store 2 (fld d 0 0 16) (fld d 4 0 16)) s
  | 5 => modLane l (fun x => { x with
      discPrev := x.discMap, discMap := some (w, fld d 0 0 128, (fld d 16 0 16 : Int) * 16 * (if watch then 5 else 1)) }) s
  | _ => s

/-- The mailboxes of a device in shadow are those of the active device (R385, R603). -/
def followMailboxes (inp : PhaseIn) (s : State) : KeyList MbxFrame × List Nat × State :=
  match s.dpx.mbxFrom.find? fun x => x.1 == inp.window with
  | none => ([], [], s)
  | some (_, m) =>
    (m, (m.filter fun x => x.2.op == 5).map (·.1), m.foldl (fun s x => followMbx inp.window inp.watch x.1 x.2 s) s)

/-- Symbols of a tick given its length in ns. -/
def symsOf (watch : Bool) (tlen : Nat) : Nat := tlen * 10 / symTenths watch

/-- A compute phase runs its chain (R34): loop engine, sequencer, selector, assignment and mailboxes. -/
def phaseStart (inp : PhaseIn) (s : State) : State :=
  let (set_, shed) := inp.shedIn.getD (if s.shedding then deferSet inp.tabs else 0, s.shedding)
  let s := if shed then count TCK_SHED_CNT_COUNT s else s
  let s := mirror (.phase inp.window set_ shed) s
  let back : Checkpoint := { window := inp.window, deb := inp.conv == .deblocked, cells := s.cells, arms := s.arms
                             syms := symsOf inp.watch inp.tlen, inp := inp, slots := s.slots, osc := s.osc }
  let s := loopEngine inp set_ s
  let (slots, s) := switching inp s
  let (mbx, ops, disc, s) := if follows s then
      let (m, d, s) := followMailboxes inp s
      (m, [], d, s)
    else fillMailboxes inp s
  let s := mirror (.mbx inp.window mbx) s
  let s := if follows s then modDpx (fun d => { d with checks := (back :: d.checks).take 2 }) s else s
  { s with run := some {
      window := inp.window, conv := inp.conv, watch := inp.watch, markAt := inp.markAt, tlen := inp.tlen
      launch := if inp.watch then 10400 else rd s TCK_LAUNCH_LAUNCH
      slots := slots, mbx := mbx, mbxOps := ops, disc := disc, back := back } }

/-- The next waiting phase starts when none runs (R50); on a device that follows, once the PHASE and MBX records of its window
have come (R385). None starts during a tick freeze (R67). -/
def phaseNext (s : State) : State :=
  if s.frozen then s
  else match s.run, s.waitIn with
  | none, inp :: r =>
    let shed := s.dpx.shedFrom.find? fun x => x.1 == inp.window
    if !follows s then phaseStart inp { s with waitIn := r }
    else if shed.isSome && s.dpx.mbxFrom.any fun x => x.1 == inp.window then
      phaseStart { inp with shedIn := shed.map (·.2) } { s with waitIn := r }
    else s
  | _, _ => s

/-- A phase falls due: it starts now or waits for the one that runs (R50). -/
def phaseDue (inp : PhaseIn) (s : State) : State := phaseNext { s with waitIn := s.waitIn ++ [inp] }

/-! The digest (R386). -/

/-- The persistent state of a loop slot with its outputs and θ. -/
def slotDigest (x : SlotSt) : List Byte :=
  ([x.out.y0, x.out.y1, x.out.y2, x.out.y3, x.x1, x.x2].flatMap fun v => leBytes 4 v.toNat) ++
  (x.mem.flatMap fun m => leBytes 2 m.1 ++ leBytes 4 m.2.toNat) ++ leBytes 2 x.jlast ++ leBytes 4 x.theta.toNat

/-- The level, residual, last trim-pulse end and refresh count of an arm for window `w`. -/
def armDigest (s : State) (w : Tick) (a : Nat) : List Byte :=
  let x := armDyn s a
  let n := (s.cells.filter fun c => refreshing w c.2 && c.2.ent.arm.toNat == a).length
  leBytes 4 (x.level % (2 ^ 32 : Nat)).toNat ++ leBytes 8 x.rho.toNat ++
  (match x.trimEnd with
  | some (w, e) => leBytes 4 w.toNat ++ leBytes 4 (e % (2 ^ 32 : Nat)).toNat
  | none => leBytes 8 0) ++ leBytes 2 n

/-- Code of an availability state (R21). -/
def Avail.code : Avail → Nat
  | .empty => 0
  | .unranged => 1
  | .available => 2
  | .refreshing => 3
  | .missing => 4
  | .faulted => 5
  | .bypassed => 6
  | .outOfService => 7

/-- The bytes a digest is taken over, in the order of R386: the converter state and AVAIL are those the phase has read (DESIGN CHOICE, log
entry 25). -/
def digestBytes (p : Phase) (s : State) : List Byte :=
  let h := phaseHeader s p
  leBytes 4 p.window.toNat ++ ((lanesEn s).flatMap (laneFrame s h p.slots p.mbx p.disc)) ++ leBytes 1 p.conv.code ++
  ((List.range 64).flatMap fun k => slotDigest (slot s k)) ++
  (((List.range 12).filter fun a => armOn (tabIn p.back.inp.tabs 0x01 a)).flatMap (armDigest s p.window)) ++
  ((List.range 8192).flatMap fun a =>
    leBytes 1 (cellIn p.back.inp.cells a).ent.avail.code ++ leBytes 2 (cell s a).dyn.dw)

/-- A paired device computes the digest of the window and sends it with LAUNCHED for the window before (R382, R386). -/
def digestStep (p : Phase) (s : State) : State :=
  if s.role == .solo then s
  else
    let d : Digest := { window := p.window, crc := BitVec.ofNat 64 (crc crc64 (digestBytes p s)) }
    let s := modDpx (fun x => { x with digests := (d :: x.digests).take 4 }) s
    sendDove (.digest p.window d.crc (s.sentWin == some (p.window - 1))) s

/-! The end of a phase (R48 to R51). -/

/-- The words of the sequencer and the selector show the phase that has ended (R312, R339). -/
def showPhase (s : State) : State :=
  let s := { s with loopDone := slotOuts s }
  forUpto 12 s fun s a => modArm a (fun x => { x with lvs := x.lvsRun, sel := x.selRun }) s

/-- The frames of a phase leave now. -/
def launchPhase (p : Phase) (s : State) : State :=
  opsSent p.mbxOps (sendFrames p.window (phaseHeader s p) p.slots p.mbx p.disc s)

/-- The compute phase that runs completes at symbol `sym`, counted from the mark of the tick it belongs to (R48, R49, R51). A device
that follows sheds with its partner (R55). -/
def phaseEnd (sym : Nat) (s : State) : State :=
  match s.run with
  | none => s
  | some p =>
    let e := max s.time (p.markAt + symNs p.watch sym)
    let l := p.markAt + p.tlen + symNs p.watch p.launch
    let lim := l + symNs p.watch (rd s TCK_SLIP_SLIP_EFF)
    let s := digestStep p (showPhase { s with time := e, run := none })
    let inTime := decide (e ≤ l) && !p.lost
    let s := if follows s then s else { s with shedding := !inTime }
    let s :=
      if inTime then { s with ready := s.ready ++ [p] }
      else if e ≤ lim && !p.lost then
        fault .tickSlip 0 0 (count TCK_SLIP_CNT_COUNT (if e < s.dpx.notBefore then unsentWindow p s else launchPhase p s))
      else overrun p s
    phaseNext (wrB TCK_STATUS_SHED s.shedding s)

/-- The latest launch of the newest tick passes with its phase unfinished (R49): the window is lost and taken back; the loss is
counted when the phase ends. -/
def slipExpiry (s : State) : State :=
  match s.run with
  | none => s
  | some p =>
    if p.window ≠ s.tick + 1 ∨ p.lost then s
    else
      let t := p.markAt + p.tlen + symNs p.watch (p.launch + rd s TCK_SLIP_SLIP_EFF)
      loseRunning { s with time := max s.time t, run := some { p with lost := true } }

/-- The launch point of the newest tick (R43, R48): the frames of the ended phase leave; a window without a phase gets a frame of
the tick engine (R63, R67). The frame of a phase that had started when a freeze took effect leaves in the frozen tick (DESIGN CHOICE,
log entry 59). -/
def launchPoint (s : State) : State :=
  let w := s.tick + 1
  if !s.lanesOn || s.conv == .dormant || rdB s CLK_STATUS_BYPASS || s.sentWin == some w then s
  else match s.ready.find? fun p => p.window == w with
    | some p =>
      let t := p.markAt + p.tlen + symNs p.watch p.launch
      let s := { s with time := max s.time t, ready := s.ready.filter fun p => p.window != w }
      if t < s.dpx.notBefore then unsentWindow p s else launchPhase p s
    | none =>
      if (s.run.map (·.window) == some w) || (s.waitIn.any fun i => i.window == w) then s
      else
        let t := s.markAt + symNs s.watch (launchSym s)
        let s := { s with time := max s.time t }
        if t < s.dpx.notBefore then { s with sentWin := some w } else engineLaunch w s

/-! The injected block set (R106, R346, R348). -/

/-- A block set is being sent (R346). -/
def setRuns (s : State) : Bool := decide (s.fcl.setFrom ≤ s.time ∧ s.time < s.fcl.setEnd)

/-- The block set a reaction has requested is injected on every star lane; a set that is being sent serves the request. -/
def blockSet (s : State) : State :=
  if !s.fcl.blockReq then s
  else
    let s := { s with fcl := { s.fcl with blockReq := false } }
    if s.lanesOn && s.conv != .dormant && !setRuns s then injectSet s else s

/-! The commands. -/

/-- SLIP_LIMIT_EXPIRY (R49). -/
def execSlipLimitExpiry (s : State) : Host.Outcome State Fault Refusal := cmd slipExpiry s

/-- MISS_LIMIT_REACHED (R54). -/
def execMissLimitReached (s : State) : Host.Outcome State Fault Refusal := cmd missLimit s

/-- BLOCK_SET_REQUEST (R346). -/
def execBlockSetRequest (s : State) : Host.Outcome State Fault Refusal := cmd blockSet s

end Sys2Proof.Machine
end

