-- ==== Sys2Proof/Machine/Bench.lean ====
section
/-! DEFINITION. Control programs on the benches (chapter 15): input images, releasing and ending cycles, watchdogs and failures,
starting and stopping, the RETAIN journal and on-line change. -/

namespace Sys2Proof.Machine

/-! Tasks (R422, R448). -/

/-- The tasks of an image with their register numbers (R448). -/
def taskList (img : ProgImage) : List (Nat × TaskDef) :=
  let cyc := img.tasks.filter fun d => !d.event
  ((List.range cyc.length).zip cyc) ++ (img.tasks.filter fun d => d.event).map fun d => (32 + d.period, d)

/-- The definition of task `t` in the running image. -/
def taskDef (s : State) (t : Nat) : Option TaskDef :=
  match s.bench.image with
  | none => none
  | some img => ((taskList img).find? fun x => x.1 == t).map (·.2)

/-- A task's running state. -/
def task (s : State) (t : Nat) : TaskSt := kget {} s.bench.tasks t

/-- Changes a task's running state. -/
def modTask (t : Nat) (f : TaskSt → TaskSt) (s : State) : State :=
  { s with bench := { s.bench with tasks := kmod {} s.bench.tasks t f } }

/-- Shows a task (R448). -/
def showTask (t : Nat) (s : State) : State :=
  let x := task s t
  let c := fctx s t
  let state := match taskDef s t with
    | none => 3
    | some _ => if x.running.isSome then 1 else if x.stopped || s.bench.pstate == .stopped then 2 else 0
  let pend := x.held.isSome || (x.running.isSome && decide (32 ≤ t) && waitMet c.flags c.wmask c.all)
  let s := wr (BEN_TSTAT_TSTATE t) state (wrB (BEN_TSTAT_PEND t) pend (wr (BEN_TSTAT_OVRRUN t) (min 255 x.ovrRun) s))
  if t < 32 then wr (BEN_TNEXT_NEXT t) x.next.toNat s else s

/-- Cycles that are running or released. -/
def cyclesRun (s : State) : List Nat := (s.bench.tasks.filter fun x => x.2.running.isSome).map (·.1)

/-! The input image (R429 to R431). -/

/-- The inputs of a phase for window `w`, as they stand now (R33). -/
def inputsNow (s : State) (w : Tick) : PhaseIn :=
  { window := w, conv := s.conv, watch := s.watch, cells := s.cells, tabs := s.tabs, markAt := s.markAt, tlen := tickLen s
    chains := s.chains, mbx := s.mbx, sv := s.meas.sv, refHold := rd s LVS_CFG_REFHOLD
    iPrev := forUpto 12 [] fun l a => kset 0 l a (kget ({} : ArmDyn) s.arms a).iPrev }

/-- A whole number as an image word of a type (R429). -/
def imageWord (vtype n : Nat) : Word := if vtype = 2 then of32 (n : Rat) else BitVec.ofNat 32 n

/-- The value of an input code (R430) for a cycle of release tick `m`. -/
def inputValue (s : State) (cx : LoopCx) (m : Tick) (x : IoEntry) : Word × BitVec 3 :=
  let c := x.code
  let num := fun (n : Nat) => (imageWord x.vtype n, qFine)
  if c < 0x800 then
    let (v, _) := source cx c
    (v.val, v.qual)
  else if c < 0xC00 then (stn s ((c - 0x800) / 32)).latched.getD (c % 32) (0, qBad)
  else if c < 0xC20 then num (bitNat (!(stn s (c - 0xC00)).lost))
  else if c = 0x1000 then num s.conv.code
  else if c = 0x1001 then num s.role.code
  else if c = 0x1002 then num (rd s FCL_STATUS_DEGRADED)
  else if c = 0x1003 then num (rd s FCL_FSW_LO_F)
  else if c = 0x1004 then num (rd s FCL_FSW_HI_F)
  else if c = 0x1005 then num m.toNat
  else
    let x2 := cell s (c - 0x2000)
    let q := if x2.live.availCopy != .available then qBad else if x2.live.pred then qHeld else qFine
    (if x.vtype = 2 then of32 ((x2.live.vcap.toNat : Rat) / 8) else BitVec.ofNat 32 (x2.live.vcap.toNat / 8), q)

/-- The measured and received values of TICKIN `t` stand in place of the device's own (R235, R282, R385). -/
def mirrorValues (t : TickIn) (s : State) : State :=
  { s with
    chains := forUpto 40 s.chains fun l c => kmod {} l c fun x =>
      let r := kget ({} : ChainRec) t.recs c
      let g : Option (Nat × GridSample) := t.grids.find? fun g => g.1 == c
      { x with rec_ := r, gridAt := g.map Prod.snd
               lastFine := if r.qual = qFine then some r.value else x.lastFine }
    mbx := forUpto 64 s.mbx fun l m => kmod {} l m fun x => mbxLatched (kget {} t.mbx m) x
    meas := { s.meas with
      latest := t.sar
      sv := forUpto 16 s.meas.sv fun l i => kmod {} l i fun x => { x with deliv := kget [] t.sv i } }
    net := { s.net with subs := forUpto 32 s.net.subs fun l i => kmod {} l i fun x =>
      { x with points := kget [] t.goose i } } }

/-- What the benches of a device read (R235): a device that takes its inputs from the active device reads those of the newest TICKIN it
has, between marks too (DESIGN CHOICE, log entry 70). -/
def benchView (s : State) : State :=
  match s.dpx.mirror with
  | some t => if waitsTickin s then mirrorValues t s else s
  | none => s

/-- The input image of a cycle released now with release tick `m` (R431). -/
def inputImage (s : State) (m : Tick) : List (Nat × F32 × BitVec 3) :=
  let s := benchView s
  match s.bench.image with
  | none => []
  | some img =>
    let cx : LoopCx := { inp := inputsNow s m, slots := s.loopDone.map fun k => (k.1, { out := k.2, fine := k.2 }), ts := 0 }
    (img.io.filter fun x => !x.output).map fun x => (x.offset, inputValue s cx m x)

/-! Releases (R418, R423 to R426). -/

/-- Some executor in a task's affinity is available (R418). -/
def canRun (s : State) (d : TaskDef) : Bool :=
  (List.range (execCount s)).any fun e => d.affinity.getLsbD e && execPowered s e

/-- The place of a directory variable in instance data, and the bytes of its value. -/
def varPlace (s : State) (id : Word) : Option (Nat × Nat) :=
  match s.bench.image with
  | none => none
  | some img => (img.vars.find? fun v => v.id == id).map fun v => (v.offset, varSize v.vtype)

/-- Reads of a forced variable return the forced value (R439), which it keeps after a clear until it is written. -/
def holdForce (s : State) (f : VarForce) : State :=
  match varPlace s f.id with
  | none => s
  | some (o, n) => { s with bench := { s.bench with idata := overlay s.bench.idata o (leBytes n f.value.toNat) } }

/-- Writes of instance data by a cycle; those to a variable forced for it are discarded (R439). -/
def writeData (t off : Nat) (d : List Byte) (s : State) : State :=
  let old := s.bench.idata
  let new := (task s t).forces.foldl (fun l f => match varPlace s f.id with
    | none => l
    | some (o, n) => overlay l o (padTo n ((old.drop o).take n))) (overlay old off d)
  { s with bench := { s.bench with idata := new } }

/-- The force in place on a variable for the cycle in hand of task `t` (R439). -/
def forceOn (s : State) (t : Nat) (var : Option Word) : Option VarForce :=
  match var with
  | none => none
  | some id => (task s t).forces.find? fun f => f.id == id

/-- Releases one cycle of task `t` now, with release tick `m`: the forces in effect by then act in it (R439), and the built-in blocks
answer as of now (R433). -/
def releaseCycle (t : Nat) (m : Tick) (s : State) : State :=
  let last := (task s t).lastRel
  let forces := s.bench.forces.filter fun f => tickGe m f.act
  let s := forces.foldl holdForce s
  let s := if t < 32 then forUpto 32 s fun s st =>
      let e := stEntry s st
      if stEn e && stTask e == t then stationLatch last st s else s
    else s
  let img := inputImage s m
  showTask t (makeReady t (modTask t (fun x => { x with
    running := some (m, s.time), image := img, lastRel := s.time, overran := false, age := 0, forces := forces
    fsw := BitVec.ofNat 64 (rd s FCL_FSW_LO_F + 2 ^ 32 * rd s FCL_FSW_HI_F), maxsev := rd s FCL_STATUS_MAXSEV
    banks := forUpto 40 0 fun b c => if (chain s c).bankB then b ||| BitVec.ofNat 40 (2 ^ c) else b
    swapDone := x.faded, faded := [] }) s))

/-- The release instant of a cyclic task whose NEXT is the tick (R423, R426). -/
def cyclicRelease (t : Nat) (d : TaskDef) (s : State) : State :=
  let x := task s t
  let m := x.next
  let s := modTask t (fun x => { x with next := x.next + BitVec.ofNat 32 d.period }) s
  if x.stopped then showTask t s
  else if !canRun s d || s.bench.pstate == .changing then showTask t (count BEN_SKIP_CNT_COUNT s)
  else if x.running.isSome then
    let n := min 255 (x.ovrRun + 1)
    let s := modTask t (fun x => { x with
      ovrRun := n, overran := true, held := if d.ovrOnce && x.held.isNone then some m else x.held }) (count BEN_OVR_CNT_COUNT s)
    let s := showTask t s
    if n = d.ovrLim ∧ x.ovrRun < d.ovrLim then fault .benchOverrun 0 t s else s
  else releaseCycle t m s

/-- The release instant of the newest tick: every cyclic task due (R423). -/
def cyclicReleases (s : State) : State :=
  match s.bench.image with
  | none => s
  | some img =>
    if s.bench.pstate == .stopped then s
    else (taskList img).foldl (fun (s : State) (x : Nat × TaskDef) =>
      if !x.2.event && (task s x.1).next == s.tick then cyclicRelease x.1 x.2 s else s) s

/-- An event task's wait has ended: its cycle is released, or skipped for want of an executor (R418, R455). -/
def eventRelease (c : Nat) (s : State) : State :=
  match taskDef s c with
  | none => s
  | some d => if canRun s d then releaseCycle c s.tick s else showTask c (enterWait c (count BEN_SKIP_CNT_COUNT s))

/-- Whether event task `c` may be released now: its program runs. -/
def eventWaits (s : State) (c : Nat) : Bool :=
  decide (32 ≤ c ∧ c < 96) && (fctx s c).st == .waiting && s.bench.pstate == .running

/-- A wait is satisfied (R452). -/
def waitSatisfied (c : Nat) (s : State) : State :=
  let x := fctx s c
  if eventWaits s c && waitMet x.flags x.wmask x.all then eventRelease c (takeWait c s) else s

/-- A wait's timeout ends first (R452, R453). -/
def waitTimeout (c : Nat) (s : State) : State :=
  let x := fctx s c
  if eventWaits s c && x.left == 0 && !waitMet x.flags x.wmask x.all then eventRelease c (timeoutWait c s) else s

/-! The RETAIN journal (R437, R438). -/

/-- The RETAIN variables of a segment, in directory order. -/
def segVars (img : ProgImage) (seg : Nat) : List VarDef := img.vars.filter fun v => v.rseg == seg

/-- The content of a segment in instance data. -/
def segData (img : ProgImage) (idata : List Byte) (seg : Nat) : List Byte :=
  (segVars img seg).flatMap fun v => padTo (varSize v.vtype) ((idata.drop v.offset).take (varSize v.vtype))

/-- Restores a segment into instance data. -/
def segRestore (img : ProgImage) (seg : Nat) (data idata : List Byte) : List Byte :=
  ((segVars img seg).foldl (fun (o : List Byte × List Byte) v =>
    (overlay o.1 v.offset (padTo (varSize v.vtype) (o.2.take (varSize v.vtype))), o.2.drop (varSize v.vtype))) (idata, data)).1

/-- The segments of an image's tasks. -/
def segsOf (img : ProgImage) : List Nat := ((img.tasks.map (·.rseg)).filter fun r => decide (r < 32)).eraseDups

/-- The newest journal sequence used for a segment. -/
def lastJseq (s : State) (seg : Nat) : Word :=
  match (s.bench.journal.filter fun j => j.seg == seg).getLast? with
  | some j => j.copy.jseq
  | none =>
    let none_ : RetainCopy := { layout := 0, jseq := 0, data := [], good := false }
    let a := kget none_ s.bench.mramA seg
    let b := kget none_ s.bench.mramB seg
    if !b.good then a.jseq else if !a.good then b.jseq else if tickGe a.jseq b.jseq then a.jseq else b.jseq

/-- A segment is copied into a journal buffer (R437): a newer snapshot replaces one that waits. -/
def journalSeg (img : ProgImage) (seg : Nat) (s : State) : State :=
  let c : RetainCopy := { layout := img.rlayout, jseq := lastJseq s seg + 1, data := segData img s.bench.idata seg }
  let old := (s.bench.journal.drop 1).any fun j => j.seg == seg
  let s := if old then count BEN_JREPL_CNT_COUNT s else s
  { s with bench := { s.bench with
      journal := s.bench.journal.take 1 ++ ((s.bench.journal.drop 1).filter fun j => j.seg != seg) ++ [{ seg := seg, copy := c }] } }

/-- What an unwritten segment of the MRAM holds: no good copy. -/
def noCopy : RetainCopy := { layout := 0, jseq := 0, data := [], good := false }

/-- The supervisor completes writing a RETAIN copy, or fails (R437). -/
def journalDone (ok : Bool) (s : State) : State :=
  match s.bench.journal with
  | [] => s
  | j :: r =>
    let put := fun (c : RetainCopy) (s : State) =>
      if j.doneA then { s with bench := { s.bench with mramB := kset noCopy s.bench.mramB j.seg c } }
      else { s with bench := { s.bench with mramA := kset noCopy s.bench.mramA j.seg c } }
    if ok then
      let s := put j.copy s
      { s with bench := { s.bench with journal := if j.doneA then r else { j with doneA := true } :: r } }
    else
      let s := put { j.copy with good := false } (count BEN_JERR_CNT_COUNT s)
      raiseSrc { src := .busError, master := 0x10, access := 2 } { s with bench := { s.bench with journal := r } }

/-- The copy a warm restart takes for a segment (R438). -/
def retainCopy (s : State) (img : ProgImage) (seg : Nat) : Option RetainCopy :=
  let a := kget noCopy s.bench.mramA seg
  let b := kget noCopy s.bench.mramB seg
  let okA := a.good && a.layout == img.rlayout
  let okB := b.good && b.layout == img.rlayout
  if okA && okB then (if decide (0 < (b.jseq - a.jseq).toInt) then some b else some a)
  else if okA then some a else if okB then some b else none

/-! The end of a cycle (R425, R426, R432). -/

/-- Takes a task off its executor and puts its context where it goes next: IDLE, its wait, or STOPPED. -/
def restTask (t : Nat) (stopped : Bool) (s : State) : State :=
  let s := unready t (leaveExec t s)
  if stopped then modCtx t (fun x => { x with st := .stopped }) s
  else if t < 32 then modCtx t (fun x => { x with st := .idle }) s
  else enterWait t s

/-- One call of a block that detects edges (R433, R434): its input against that of its own previous call, which a RETAIN variable of its
name holds too. -/
def callEdge (fb : Word) (falling clk : Bool) (s : State) : State :=
  let m := kget ({} : EdgeMem) s.bench.edges fb.toNat
  let q := if falling then m.prev && !clk else clk && !m.prev
  let s := { s with bench := { s.bench with edges := kset {} s.bench.edges fb.toNat { prev := clk, q := q } } }
  match varPlace s fb with
  | none => s
  | some (o, n) => { s with bench := { s.bench with idata := overlay s.bench.idata o (leBytes n (bitNat clk)) } }

/-- What the newest call of a block that detects edges answered. -/
def edgeOut (s : State) (fb : Word) : Bool := (kget ({} : EdgeMem) s.bench.edges fb.toNat).q

/-- A value as a cycle of task `t` commits it: forced with quality FINE, else as written, FINE where no quality was written (R432, R439). -/
def outVal (s : State) (t : Nat) (v : Word) (q : Option (BitVec 3)) (var : Option Word) : Word × BitVec 3 :=
  match forceOn s t var with
  | some f => (f.value, qFine)
  | none => (v, q.getD qFine)

/-- One output of a cycle (R432 to R434, R439). A following device's remote outputs are kept but not published; what its mailboxes latch
comes from the mirror (R282, R447). Which variable an output or a detector's input is, is the code's (DESIGN CHOICE, log entry 40). -/
def cycleOut (t : Nat) (s : State) (o : CycleOut) : State :=
  match o with
  | .mailbox m v q var =>
    let (v, q) := outVal s t v q var
    mbxWrite m.val { val := v, qual := q } s
  | .remote st p v q var =>
    modStn st.val (fun x => { x with outputs := kset ((0 : Word), qFine) x.outputs p.val (outVal s t v q var) }) s
  | .bankSwap c b len =>
    modTask t (fun x => { x with asked := x.asked ++ [c.val] })
      { s with bench := { s.bench with swaps := s.bench.swaps ++ [(c.val, b, len.toNat, s.time)] } }
  | .event fb n req =>
    let s := callEdge fb false req s
    if edgeOut s fb then setFlag n.val 0 s else s
  | .trig fb falling clk var =>
    callEdge fb falling (match forceOn s t var with | some f => f.value.getLsbD 0 | none => clk) s
  | .instanceData off d => writeData t off d s
  | .divZero => wrB (BEN_TSTAT_EXC t) true s

/-- The Timecount of the release instant of tick `m` (R423). -/
def releaseTime (s : State) (m : Tick) : Nat := timeOfTick s m + symNs s.watch (winClose (liveMode s) s.watch)

/-- Publishes the stations a cyclic task owns (R443). -/
def publishOwned (t : Nat) (s : State) : State :=
  if 32 ≤ t then s
  else forUpto 32 s fun s st =>
    if stTask (stEntry s st) == t then publish st (releaseTime s (task s t).next) s else s

/-- The cycle in hand on task `t` has a context that runs it, on an executor that is not halted (R66). -/
def cycleRuns (s : State) (t : Nat) : Bool :=
  (task s t).running.isSome && (fctx s t).st == .running && !s.bench.halted.getLsbD (fctx s t).exec

/-- A cycle wrote a variable of RETAIN segment `seg` (R437). -/
def wroteSeg (img : ProgImage) (seg : Nat) (outs : List CycleOut) : Bool :=
  outs.any fun o => (segVars img seg).any fun v => match o with
    | .instanceData off d => decide (off < v.offset + varSize v.vtype ∧ v.offset < off + d.length)
    | .trig fb _ _ _ => v.id == fb
    | .event fb _ _ => v.id == fb
    | _ => false

/-- A cycle that wrote its segment has it copied into a journal buffer (R437). -/
def journalTask (t : Nat) (outs : List CycleOut) (s : State) : State :=
  match s.bench.image, taskDef s t with
  | some img, some d => if decide (d.rseg < 32) && wroteSeg img d.rseg outs then journalSeg img d.rseg s else s
  | _, _ => s

/-- A cycle ends and commits its outputs (R432), with its journal copy in the same step (R437). -/
def cycleEnd (t : Nat) (outs : List CycleOut) (s : State) : State :=
  match (task s t).running with
  | none => s
  | some (_, t0) =>
    if !cycleRuns s t then s
    else
      let s := publishOwned t (journalTask t outs (outs.foldl (cycleOut t) s))
      let ns := min (2 ^ 32 - 1) (s.time - t0)
      let s := wr (BEN_TLAST_NS t) ns (wr (BEN_TMAX_NS t) (max ns (rd s (BEN_TMAX_NS t))) s)
      let s := restTask t false (modTask t (fun x => { x with
        running := none, ovrRun := if x.overran then x.ovrRun else 0, overran := false }) s)
      match (task s t).held with
      | none => showTask t s
      | some m => releaseCycle t m (modTask t (fun x => { x with held := none }) s)

/-- A cycle is abandoned: none of its outputs are committed; `stop`: the task becomes STOPPED. -/
def abandon (t : Nat) (stop : Bool) (s : State) : State :=
  showTask t (restTask t stop (modTask t (fun x => { x with
    running := none, held := if stop then none else x.held, overran := false, stopped := x.stopped || stop }) s))

/-- A cycle still runs WDT ticks after its release (R427). -/
def watchdog (t : Nat) (s : State) : State :=
  match taskDef s t with
  | none => s
  | some d =>
    let x := task s t
    if x.running.isNone || decide (x.age < d.wdt) then s else abandon t true (fault .watchdog 0 t s)

/-- A bad access of a cycle (R428); its master is the executor it runs on (R406). -/
def busError (t : Nat) (a : BadAccess) (s : State) : State :=
  if !cycleRuns s t then s
  else abandon t true (raiseSrc { src := .busError, master := BitVec.ofNat 6 (fctx s t).exec, access := a.access, addr := a.addr } s)

/-- The two cores of a Paired bench disagree (R417). A service routine on it returns to the head of its list. -/
def benchLockstep (b : Nat) (s : State) : State :=
  if split s || s.bench.benchFailed.getLsbD b then s
  else
    let s := { s with bench := { s.bench with benchFailed := s.bench.benchFailed ||| BitVec.ofNat 8 (2 ^ b) } }
    let s := fault .benchLockstep 0 b (wrBit BEN_PSTAT_BENCH_OK b false s)
    match onExec s b with
    | none => s
    | some c => if c < 96 then abandon c false s else makeReadyHead c (setExec b none s)

/-- The tasks' part of a mark: the watchdogs count, but not on a halted executor (R66, R427). -/
def tasksMark (s : State) : State :=
  (cyclesRun s).foldl (fun s t =>
    let c := fctx s t
    if c.st == .running && s.bench.halted.getLsbD c.exec then s else modTask t (fun x => { x with age := x.age + 1 }) s) s

/-- Requests of FV_BANKSWAP commit at the first mark whose fence they clear (R433). -/
def swapsMark (s : State) : State :=
  let due := s.bench.swaps.filter fun x => decide (x.2.2.2 + 16 < s.markAt)
  let s := { s with bench := { s.bench with swaps := s.bench.swaps.filter fun x => !decide (x.2.2.2 + 16 < s.markAt) } }
  due.foldl (fun s x => swapRequest x.1 { target := x.2.1, len := x.2.2.1 } s) s

/-! Starting and stopping (R416, R435, R436). -/

/-- Shows the program state and posts PROGRAM_STATE (R505). -/
def setPstate (p : ProgState) (s : State) : State :=
  let n := match p with | .stopped => 0 | .running => 1 | .changing => 2
  post 5 0x0602 [BitVec.ofNat 8 n] (wr BEN_PSTAT_PSTATE n { s with bench := { s.bench with pstate := p } })

/-- Shows every task. -/
def showTasks (s : State) : State := forUpto 96 s fun s t => showTask t s

/-- Shows the number of forces in place. -/
def showForces (s : State) : State := wr BEN_NFORCE_N s.bench.forces.length s

/-- Shows the identity of the image. -/
def showImage (s : State) : State :=
  match s.bench.image with
  | none => s
  | some img => wr BEN_IMGID_LO_ID img.imageId.toNat (wr BEN_IMGID_HI_ID (img.imageId.toNat / 2 ^ 32) s)

/-- A task's context takes its priority and affinity (R422, R457). -/
def setupTask (x : Nat × TaskDef) (s : State) : State :=
  modCtx x.1 (fun c => { c with prio := x.2.prio, affinity := x.2.affinity, flow := 0 }) s

/-- The program starts at tick `n` (R423, R435 to R438): the first invalid segment of a warm restart is answered instead. -/
def progStart (warm : Bool) (n : Tick) (s : State) : State × Option Nat :=
  match s.bench.staged.or s.bench.image with
  | none => (s, none)
  | some img =>
    let keeps := fun (d : List Byte) => (img.vars.filter fun v => decide (v.vtype = 0 ∧ v.rseg < 32)).foldl
      (fun (l : KeyList EdgeMem) v => kset {} l v.id.toNat { prev := fldB d v.offset 0 }) []
    let bad := if warm then (segsOf img).mergeSort.find? fun g => (retainCopy s img g).isNone else none
    match bad with
    | some g => (s, some g)
    | none =>
      let idata := if warm then (segsOf img).foldl (fun d g =>
          match retainCopy s img g with
          | some c => segRestore img g c.data d
          | none => d) img.idata
        else img.idata
      let s := { s with bench := { s.bench with
        image := some img, staged := none, idata := idata, benchFailed := 0, tasks := [], swaps := []
        edges := if warm then keeps idata else []
        forces := if warm then s.bench.forces else [] } }
      let s := forUpto 96 s fun s t => modCtx t (fun _ => {}) s
      let s := (taskList img).foldl (fun (s : State) (x : Nat × TaskDef) =>
        let s := setupTask x s
        if x.2.event then enterWait x.1 s
        else modTask x.1 (fun y => { y with next := n + BitVec.ofNat 32 x.2.offset }) (modCtx x.1 (fun c => { c with st := .idle }) s)) s
      let s := wr BEN_PSTAT_BENCH_OK 0xFF (showImage (showForces s))
      (showTasks (setPstate .running s), none)

/-- The program stops (R435): every running cycle ends without committing. -/
def progStop (s : State) : State :=
  let s := (cyclesRun s).foldl (fun s t => abandon t false s) s
  let s := match s.bench.image with
    | none => s
    | some img => (taskList img).foldl (fun (s : State) (x : Nat × TaskDef) => restTask x.1 true s) s
  let s := forUpto 96 s fun s t => modTask t (fun x => { x with held := none }) s
  showTasks (setPstate .stopped s)

/-! On-line change (R440, R441). -/

/-- New instance data (R440 step 4): variables whose id and type survive keep their values. -/
def newIdata (old new : ProgImage) (data : List Byte) : List Byte :=
  new.vars.foldl (fun d v =>
    match old.vars.find? fun o => o.id == v.id && o.vtype == v.vtype with
    | some o => overlay d v.offset (padTo (varSize v.vtype) ((data.drop o.offset).take (varSize v.vtype)))
    | none => d) new.idata

/-- Posts FORCE_ORPHANED for discarded forces, ten ids an event (R441, R505). -/
def orphaned : Nat → List Word → State → State
  | 0, _, s => s
  | _ + 1, [], s => s
  | n + 1, l, s =>
    let (a, r) := (l.take 10, l.drop 10)
    orphaned n r (post 5 0x0601 (leBytes 1 a.length ++ leBytes 1 (bitNat !r.isEmpty) ++ a.flatMap fun i => leBytes 4 i.toNat) s)

/-- NEXT of a task that the change alters: the first tick at or after `from_` whose difference from `c` is OFFSET modulo
PERIOD. -/
def changedNext (c from_ : Tick) (d : TaskDef) : Tick :=
  let k := (from_ - c).toNat
  let r := (k + d.period - d.offset % d.period) % d.period
  from_ + BitVec.ofNat 32 (if r = 0 then 0 else d.period - r)

/-- The banks are swapped (R440 steps 4 to 6). -/
def changeSwap (s : State) : State :=
  match s.bench.changeTo, s.bench.image with
  | some (new, c, order), some old =>
    if s.bench.pstate != .changing || !(cyclesRun s).isEmpty then s
    else
      let both := fun (id : Word) => match old.vars.find? fun v => v.id == id with
        | some o => new.vars.any fun v => v.id == o.id && v.vtype == o.vtype
        | none => false
      let keep := fun (f : VarForce) => both f.id
      let gone := (s.bench.forces.filter fun f => !keep f).map (·.id)
      let before := taskList old
      -- the release instant of the newest tick has passed once its window has closed
      let from_ := if s.closeDone == some s.tick then s.tick + 1 else s.tick
      let tasks := (taskList new).foldl (fun (l : KeyList TaskSt) x =>
        let o := task s x.1
        let same := before.any fun y => y.1 == x.1 && y.2.period == x.2.period && y.2.offset == x.2.offset
        let had := before.any fun y => y.1 == x.1
        let y := if had then o else {}
        kset {} l x.1 (if x.2.event || same then y else { y with next := changedNext c from_ x.2 })) []
      let idata := newIdata old new s.bench.idata
      let s := { s with bench := { s.bench with
        image := some new, staged := none, changeTo := none, idata := idata, tasks := tasks
        edges := s.bench.edges.filter fun x => both (BitVec.ofNat 32 x.1)
        forces := s.bench.forces.filter keep } }
      let s := forUpto 96 s fun s t =>
        if (taskList new).any fun x => x.1 == t then s else modCtx t (fun _ => {}) s
      let s := (taskList new).foldl (fun (s : State) (x : Nat × TaskDef) =>
        let was := (fctx s x.1).st
        let s := setupTask x s
        if (task s x.1).stopped then s
        else if x.2.event then (if was == .waiting then s else enterWait x.1 s)
        else modCtx x.1 (fun k => { k with st := .idle }) s) s
      let s := if gone.isEmpty then s else orphaned (gone.length + 1) gone s
      let s := (segsOf new).foldl (fun s g => journalSeg new g s) s
      let s := showTasks (setPstate .running (showImage (showForces s)))
      finish order .ok (leBytes 4 s.tick.toNat) none s
  | _, _ => s

/-- Cycles still run CHG_WAIT ticks after the switch tick (R440). -/
def changeTimeout (s : State) : State :=
  match s.bench.changeTo with
  | none => s
  | some (_, c, order) =>
    if s.bench.pstate != .changing || (cyclesRun s).isEmpty || decide (tickDiff s.tick c < rd s BEN_CFG_CHG_WAIT) then s
    else finish order .changeTimeout [] none
      (showTasks (setPstate .running { s with bench := { s.bench with changeTo := none } }))

/-- The release instant of the switch tick (R440 step 3). -/
def changeBegin (order : Nat) (c : Tick) (s : State) : State :=
  match s.bench.staged with
  | none => s
  | some img => setPstate .changing { s with bench := { s.bench with changeTo := some (img, c, order) } }

/-- Renumbering (R424): NEXT of every cyclic task is the first new mark + OFFSET. -/
def renumberTasks (s : State) : State :=
  match s.bench.image with
  | none => s
  | some img => showTasks ((taskList img).foldl (fun (s : State) (x : Nat × TaskDef) =>
      if x.2.event then s else modTask x.1 (fun y => { y with next := s.tick + BitVec.ofNat 32 x.2.offset }) s) s)

/-! The commands. -/

/-- WAIT_SATISFIED (R452). -/
def execWaitSatisfied (c : Fin 256) (s : State) : Host.Outcome State Fault Refusal := cmd (waitSatisfied c.val) s

/-- WAIT_TIMEOUT (R452). -/
def execWaitTimeout (c : Fin 256) (s : State) : Host.Outcome State Fault Refusal := cmd (waitTimeout c.val) s

/-- BENCH_CYCLE_END (R432). -/
def execBenchCycleEnd (t : Fin 96) (outs : List CycleOut) (s : State) : Host.Outcome State Fault Refusal :=
  cmd (cycleEnd t.val outs) s

/-- BENCH_LOCKSTEP (R417). -/
def execBenchLockstep (b : Fin 8) (s : State) : Host.Outcome State Fault Refusal := cmd (benchLockstep b.val) s

/-- WATCHDOG (R427). -/
def execWatchdog (t : Fin 96) (s : State) : Host.Outcome State Fault Refusal := cmd (watchdog t.val) s

/-- BUS_ERROR (R428). -/
def execBusError (t : Fin 96) (a : BadAccess) (s : State) : Host.Outcome State Fault Refusal := cmd (busError t.val a) s

/-- JOURNAL_WRITE_DONE (R437). -/
def execJournalWriteDone (ok : Bool) (s : State) : Host.Outcome State Fault Refusal := cmd (journalDone ok) s

/-- CHANGE_SWAP (R440). -/
def execChangeSwap (s : State) : Host.Outcome State Fault Refusal := cmd changeSwap s

/-- CHANGE_TIMEOUT (R440). -/
def execChangeTimeout (s : State) : Host.Outcome State Fault Refusal := cmd changeTimeout s

end Sys2Proof.Machine
end

