-- ==== Sys2Proof/Machine/Ledger.lean ====
section
/-! DEFINITION. The Ledger (chapter 17): streams and rings, firings, segments, the pool, and arming. -/

namespace Sys2Proof.Machine

/-- Changes the Ledger. -/
def modLedger (f : LedgerSt → LedgerSt) (s : State) : State := { s with ledger := f s.ledger }

/-! Sizes (R470 to R473). -/

/-- Enabled channels of the channel table, in entry order. -/
def channels (s : State) : List Nat := (List.range 256).filter fun k => fldB (tab s 0x0E k) 2 0

/-- Bytes of a channel sample (R472). -/
def chanSize (s : State) : Nat := 16 + 16 * (channels s).length

/-- Bytes of a snapshot sample in a lane mode (R470). -/
def snapBytes (m : LaneMode) : Nat := 64 * slotsOf m * 8

/-- Whether the part lacks Deep mode: variant 2 (R2). -/
def lacksDeep (s : State) : Bool := rd s GLB_IDENT_VARIANT == 2

/-- The largest snapshot sample of the variant. -/
def snapLargest (s : State) : Nat := snapBytes (if lacksDeep s then .dense else .deep)

/-- The segment area of a configuration in bytes (R473): the pool less its rings, laid out for their largest samples. -/
def segArea (s : State) (pool sd cd : Nat) : Int :=
  ((pool * 2 ^ 28 : Nat) : Int) - ((2 ^ sd * snapLargest s + 2 ^ cd * 4112 : Nat) : Int)

/-- The segment area in force. -/
def segAreaNow (s : State) : Int := segArea s (rd s LDG_CFG_POOL) (rd s LDG_CFG_SNAP_DEPTH) (rd s LDG_CFG_CHAN_DEPTH)

/-- Bytes the held segments take. -/
def segUsed (s : State) : Nat := (s.ledger.segs.map (·.reserved)).sum

/-- PD10 is in self-refresh for the streams (R474): also while a command keeps the DRAM awake (R572). -/
def streamsAsleep (s : State) : Bool := rdB s PWR_DOMSTAT_WATCHPROF && !rdB s PWR_CFG_MEM_WATCH

/-! Segments (R479, R480). -/

/-- The segments that are filling from a stream. -/
def filling (s : State) (snap : Bool) : Nat := (s.ledger.segs.filter fun g => g.stream == snap && !g.done).length

/-- Shows the filling segments. -/
def showFill (s : State) : State := wr LDG_STATUS_SFILL (filling s true) (wr LDG_STATUS_CFILL (filling s false) s)

/-- Header byte 3. -/
def segFlags (g : LedgerSeg) : Nat :=
  bitNat g.rCond + 2 * bitNat g.rFault + 4 * bitNat g.rHost + 8 * bitNat g.shortPre + 16 * bitNat g.trunc +
    32 * bitNat g.gap + 64 * bitNat g.ue

/-- The bytes of a segment (R480). -/
def segBytes (g : LedgerSeg) : List Byte :=
  leBytes 2 g.segid.toNat ++ leBytes 1 (g.unit + 32 * bitNat g.stream) ++ leBytes 1 (segFlags g) ++ leBytes 4 g.samples.length ++
  leBytes 4 g.preact ++ leBytes 4 g.sampSz ++ leBytes 8 g.tstamp ++ leBytes 4 g.ttick.toNat ++ leBytes 4 g.first.toNat ++
  leBytes 4 g.value.toNat ++ leBytes 2 g.ctver.toNat ++ leBytes 1 (g.mode.code + 4 * bitNat g.watch) ++ List.replicate 25 0 ++
  g.samples.reverse.flatten

/-- A segment is complete (R479). -/
def segDone (g : LedgerSeg) (s : State) : State :=
  post 3 0x0401 (leBytes 2 g.segid.toNat ++ leBytes 1 g.unit ++ leBytes 1 (segFlags g)) s

/-- Replaces the segments by `f`, posting those that become complete. -/
def updSegs (f : LedgerSeg → LedgerSeg) (s : State) : State :=
  let l := s.ledger.segs.map fun g => (g, f g)
  let s := modLedger (fun x => { x with segs := l.map (·.2) }) s
  showFill (l.foldl (fun s p => if p.2.done && !p.1.done then segDone p.2 s else s) s)

/-- A ring restarts empty (R474): the segments filling from it end with TRUNC. -/
def ringRestart (snap : Bool) (s : State) : State :=
  let s := modLedger (fun x => if snap then { x with snapRing := [] } else { x with chanRing := [], gapNextC := false }) s
  updSegs (fun g => if g.stream == snap && !g.done then { g with done := true, trunc := true } else g) s

/-- Both rings restart: a change of lane mode or of the tick numbering (R474). -/
def ringsRestart (s : State) : State := ringRestart true (ringRestart false s)

/-- A commit changes the channel table (R474, R480). -/
def channelsChanged (s : State) : State := ringRestart false (modLedger (fun x => { x with ctver := x.ctver + 1 }) s)

/-- A sample of tick `n` is written to a stream's ring and to the segments filling from it. -/
def writeSample (snap : Bool) (n : Tick) (b : List Byte) (s : State) : State :=
  let s := modLedger (fun x =>
    if snap then { x with snapRing := ((n, b) :: x.snapRing).take (2 ^ rd s LDG_CFG_SNAP_DEPTH) }
    else { x with chanRing := ((n, b) :: x.chanRing).take (2 ^ rd s LDG_CFG_CHAN_DEPTH), gapNextC := false }) s
  updSegs (fun g =>
    if g.stream == snap && !g.done then
      { g with samples := b :: g.samples, first := if g.samples.isEmpty then n else g.first
               preact := if g.samples.isEmpty then (tickDiff g.ttick n).toNat else g.preact
               done := tickGe n g.last }
    else g) s

/-! Samples (R470 to R472). -/

/-- The per-cell record of an address (R26), 8 bytes. -/
def cellRecBytes (c : CellRec) : List Byte :=
  leBytes 1 (c.state.toNat + 16 * c.availCopy.code) ++ leBytes 2 c.vcap.toNat ++ [c.tmod] ++
  leBytes 1 (bitNat c.rptOk + 2 * bitNat c.pred + 4 * c.ntrans.toNat + 16 * bitNat c.forced + 32 * c.missCnt.toNat) ++
  [c.fault, c.dtMeas, c.seq]

/-- The snapshot sample: the record of every address of the lane mode, in order. -/
def snapSample (s : State) : List Byte :=
  (List.range 64).flatMap fun l => (laneAddrs s l).flatMap fun a => cellRecBytes (cell s a).live

/-- The value of a signal as at the newest mark (R472). -/
def signalNow (s : State) (src : Nat) : Word × BitVec 3 :=
  if 0x2000 ≤ src then
    let c := cell s (src - 0x2000)
    let q := if c.live.availCopy != .available then qBad else if c.live.pred then qHeld else qFine
    (of32 ((c.live.vcap.toNat : Rat) / 8), q)
  else
    let cx : LoopCx := { inp := inputsNow s s.tick, slots := s.loopSeen.map fun k => (k.1, { out := k.2, fine := k.2 }), ts := 0 }
    let (v, _) := source cx src
    (v.val, v.qual)

/-- The 16 bytes of a channel (R472). -/
def channelBytes (s : State) (k : Nat) : List Byte :=
  let e := tab s 0x0E k
  let (v, q) := signalNow s (fld e 0 0 16)
  let (lo, hi) := if s.shedding || !decide (fld e 0 0 16 < 40) then (v, v)
    else match s.ledger.sums.find? fun x => x.1 == k with
      | some x => x.2
      | none => (v, v)
  leBytes 4 v.toNat ++ leBytes 4 lo.toNat ++ leBytes 4 hi.toNat ++ leBytes 1 q.toNat ++ [0, 0, 0]

/-- The channel sample of the newest tick. -/
def chanSample (s : State) : List Byte :=
  let l := channels s
  leBytes 4 s.tick.toNat ++ leBytes 1 (bitNat s.shedding + 2 * bitNat s.ledger.gapNextC) ++ [0] ++ leBytes 2 l.length ++
  List.replicate 8 0 ++ l.flatMap (channelBytes s)

/-- The streams write their samples of the newest tick at its upstream-window close (R470, R471), and the signals that change at
marks are evaluated (R476). -/
def ledgerClose (s : State) : State :=
  let sigs := ((s.ledger.trigs.filter fun x => x.2.armed).map fun x => trSig (trEntry s x.1)).eraseDups
  let s := (sigs.filter fun k => decide (40 ≤ k) && k != 0xFFFF).foldl (fun s k =>
    let (v, q) := signalNow s k
    trigOutput k false v q s.markAt s) s
  if streamsAsleep s then s
  else
    let s := if rdB s LDG_CFG_SNAP_EN then writeSample true s.tick (snapSample s) s else s
    if rdB s LDG_CFG_CHAN_EN then writeSample false s.tick (chanSample s) s else s

/-- A mark ends the tick of the summaries (R472). -/
def ledgerMark (s : State) : State := modLedger (fun x => { x with sums := x.minmax, minmax := [] }) s

/-- The newest sample of a stream is lost in staging (R482): its place is filled with 0xFF. -/
def sampleLost (chan : Bool) (s : State) : State :=
  let ring := if chan then s.ledger.chanRing else s.ledger.snapRing
  match ring with
  | [] => s
  | (n, b) :: r =>
    if b.isEmpty then s
    else
      let s := modLedger (fun x => { (if chan then { x with chanRing := (n, []) :: r, gapNextC := true }
          else { x with snapRing := (n, []) :: r }) with
        segs := x.segs.map fun g =>
          if g.stream != chan && g.samples.head? == some b && (g.first + BitVec.ofNat 32 (g.samples.length - 1)) == n then
            { g with samples := List.replicate g.sampSz 0xFF :: g.samples.drop 1, gap := true }
          else g }) s
      fault .ledgerOverflow 3 0 (count LDG_GAP_CNT_COUNT s)

/-! Firings (R477 to R482). -/

/-- Shows which units are armed. -/
def showArmed (u : Nat) (s : State) : State := wrBit LDG_ARM_ARM u (trig s u).armed s

/-- Arms a unit (R477): an armed unit stays as it is. -/
def armUnit (u : Nat) (s : State) : State :=
  if (trig s u).armed then s else showArmed u (modTrig u (fun x => { trigFresh x with armed := true, fires := [] }) s)

/-- Disarms a unit (R484). -/
def disarmUnit (u : Nat) (s : State) : State := showArmed u (modTrig u (fun x => { trigFresh x with armed := false, fires := [] }) s)

/-- The hold-off of a unit runs at instant `t` (R478). -/
def holds (x : TrigSt) (t : Nat) : Bool :=
  (match x.holdTill with
  | some h => decide (t < h)
  | none => false) || x.holdCnt.isSome

/-- A fetch of the segment runs (R483). -/
def segFetched (s : State) (g : LedgerSeg) : Bool :=
  s.accepted.any fun a => a.cmd.opc == .ledgerFetch && a.begun && fld a.cmd.param 0 0 16 == g.segid.toNat

/-- Releases complete segments, oldest first, until there is room (R482). -/
def wrapFor (need : Nat) : Nat → State → State
  | 0, s => s
  | n + 1, s =>
    if (segUsed s + need : Nat) ≤ segAreaNow s then s
    else match s.ledger.segs.findIdx? fun g => g.done && !segFetched s g with
      | none => s
      | some i => wrapFor need n (count LDG_WRAP_CNT_COUNT (modLedger (fun x => { x with segs := x.segs.eraseIdx i }) s))

/-- Makes the segment of a firing (R479, R480). -/
def makeSegment (u : Nat) (f : TrigFire) (host : Bool) (s : State) : State :=
  let e := trEntry s u
  let snap := trStream e
  let n := trN e
  let sz := if snap then snapBytes (liveMode s) else chanSize s
  let k := if s.markAt ≤ f.at_ then s.tick else s.tick - 1
  let pre := n * trPre e / 256
  let lo := k - BitVec.ofNat 32 pre
  let last := lo + BitVec.ofNat 32 (n - 1)
  let ring := if snap then s.ledger.snapRing else s.ledger.chanRing
  let held := ring.filter fun x => tickGe x.1 lo && tickGe last x.1
  let first := match held.getLast? with
    | some x => x.1
    | none => k
  let short := match held.getLast? with
    | some x => x.1 != lo
    | none => true
  let g : LedgerSeg := {
    segid := s.ledger.nextSeg, unit := u, stream := snap, rCond := f.cond, rFault := f.fault, rHost := host
    shortPre := short && decide (0 < pre), gap := held.any fun x => x.2.isEmpty, last := last
    preact := (tickDiff k first).toNat, sampSz := sz, tstamp := f.at_, ttick := k, first := first, value := f.value
    ctver := s.ledger.ctver, mode := liveMode s, watch := s.watch
    samples := held.map fun x => if x.2.isEmpty then List.replicate sz 0xFF else x.2
    done := held.any fun x => x.1 == last, reserved := 64 + n * sz }
  let s := modLedger (fun x => { x with segs := x.segs ++ [g], nextSeg := x.nextSeg + 1 }) s
  showFill (if g.done then segDone g s else s)

/-- A firing that is not ignored tries to make its segment; answers whether its hold-off starts (R474, R478, R481, R482). -/
def trySegment (u : Nat) (f : TrigFire) (host : Bool) (s : State) : State × Bool :=
  let e := trEntry s u
  let snap := trStream e
  if streamsAsleep s then (count LDG_DROP_CNT_COUNT s, false)
  else if (if snap then 2 else 64) ≤ filling s snap ∨ 65536 ≤ s.ledger.segs.length then
    (fault .ledgerOverflow 1 u (count LDG_DROP_CNT_COUNT s), false)
  else
    let need := 64 + trN e * (if snap then snapBytes (liveMode s) else chanSize s)
    let s := if rdB s LDG_CFG_OVF then wrapFor need s.ledger.segs.length s else s
    if segAreaNow s < (segUsed s + need : Nat) then
      (fault .ledgerOverflow 2 u (count LDG_DROP_CNT_COUNT (wrB LDG_STATUS_FULL true s)), true)
    else (makeSegment u f host (wrB LDG_STATUS_FULL false s), true)

/-- Re-arms or disarms a unit after a firing (R478): a pulse in progress at the re-arm does not count. -/
def afterFire (u : Nat) (s : State) : State :=
  if trAuto (trEntry s u) then modTrig u (fun x => { x with stale := x.start.isSome }) s else disarmUnit u s

/-- An armed unit fires (R477, R478). -/
def fireUnit (u : Nat) (f : TrigFire) (host : Bool) (s : State) : State :=
  let x := trig s u
  if !x.armed then s
  else if holds x f.at_ then
    modTrig u (fun x => { x with holdCnt := x.holdCnt.bind fun n => if n ≤ 1 then none else some (n - 1) })
      (count (LDG_THOLD_COUNT u) s)
  else
    let e := trEntry s u
    let s := modTrig u (fun x => { x with holdTill := none }) s
    let (s, hold) := trySegment u f host (occur (0x100 + u) (count (LDG_TFIRE_COUNT u) s))
    let s := if !hold || trHold e == 0 then s
      else modTrig u (fun x => if trHcount e then { x with holdCnt := some (trHold e) }
        else { x with holdTill := some (f.at_ + trHold e) }) s
    afterFire u s

/-- A unit's oldest firing by its condition or by a fault record acts (R477). -/
def triggerFire (u : Nat) (s : State) : State :=
  match (trig s u).fires with
  | [] => s
  | f :: r => fireUnit u f false (modTrig u (fun x => { x with fires := r }) s)

/-- Software fires a unit (R477); a firing of the same core cycle is the same firing. -/
def hostFire (u : Nat) (s : State) : State :=
  match (trig s u).fires.find? fun f => f.at_ == s.time with
  | some f => fireUnit u f true (modTrig u (fun x => { x with fires := x.fires.filter fun g => g.at_ != s.time }) s)
  | none => fireUnit u { at_ := s.time } true s

/-- A unit's hold-off time ends (R478); a counted one ends with its last ignored firing. -/
def holdoffEnd (u : Nat) (s : State) : State :=
  match (trig s u).holdTill with
  | none => s
  | some t => modTrig u (fun x => { x with holdTill := none }) { s with time := max s.time t }

/-- A commit that changes the entry of an armed unit restarts its condition and its hold-off (R475). -/
def trigCommit (u : Nat) (old : List Byte) (s : State) : State :=
  if trEntry s u = old ∨ !(trig s u).armed then s
  else modTrig u (fun x => { trigFresh x with holdTill := none, holdCnt := none, fires := [] }) s

/-! Registers (R473, R484). -/

/-- A write to LDG_CFG (R473, R474). -/
def cfgWrite (v : Word) (s : State) : State :=
  let f := fun (x : Field) => v.toNat / 2 ^ x.lo % 2 ^ x.width
  let sd := f LDG_CFG_SNAP_DEPTH
  let cd := f LDG_CFG_CHAN_DEPTH
  let pool := f LDG_CFG_POOL
  let moved := pool ≠ rd s LDG_CFG_POOL ∨ sd ≠ rd s LDG_CFG_SNAP_DEPTH ∨ cd ≠ rd s LDG_CFG_CHAN_DEPTH
  let onS := rdB s LDG_CFG_SNAP_EN
  let onC := rdB s LDG_CFG_CHAN_EN
  let range := 10 ≤ sd ∧ 10 ≤ cd ∧ 1 ≤ pool ∧ pool ≤ 28 ∧ sd ≤ 16 ∧ cd ≤ 16
  if !range ∨ (moved ∧ (onS ∨ onC)) ∨ segArea s pool sd cd < 2 ^ 28 then wrB LDG_STATUS_WRERR true s
  else
    let s := wr LDG_CFG_SNAP_DEPTH sd (wr LDG_CFG_CHAN_DEPTH cd (wr LDG_CFG_POOL pool (wr LDG_CFG_OVF (f LDG_CFG_OVF) s)))
    let s := wr LDG_CFG_SNAP_EN (f LDG_CFG_SNAP_EN) (wr LDG_CFG_CHAN_EN (f LDG_CFG_CHAN_EN) s)
    let s := if f LDG_CFG_SNAP_EN = 1 ∧ !onS then ringRestart true s else s
    if f LDG_CFG_CHAN_EN = 1 ∧ !onC then ringRestart false s else s

/-- A write to LDG_LATCH captures the segment set (R484). -/
def ldgLatch (s : State) : State :=
  let s := wr LDG_LATCH_LSEQ (rd s LDG_LATCH_LSEQ + 1) s
  let ids := s.ledger.segs.map (·.segid.toNat)
  let s := wr LDG_SEGNEW_SEGID (ids.getLastD 0) (wr LDG_SEGNEW_HELD (min 0xFFFF ids.length) s)
  let s := wr LDG_SEGOLD_SEGID (ids.headD 0) s
  let s := wr LDG_FREE_MB ((segAreaNow s - segUsed s).toNat / 2 ^ 20) s
  forUpto 32 s fun s u =>
    let x := trig s u
    wr (LDG_TSTAT_USTATE u) (if holds x s.time then 2 else bitNat x.armed) (wrB (LDG_TSTAT_INPULSE u) x.start.isSome s)

/-- For each bit written as 1, `f` of its unit. -/
def eachUnit (f : Nat → State → State) (v : Word) (s : State) : State := forUpto 32 s fun s u => if v.getLsbD u then f u s else s

/-! The commands. -/

/-- LEDGER_SAMPLE_LOST (R482). -/
def execLedgerSampleLost (chan : Bool) (s : State) : Host.Outcome State Fault Refusal := cmd (sampleLost chan) s

/-- LEDGER_TRIGGER_FIRE (R479). -/
def execLedgerTriggerFire (u : Fin 32) (s : State) : Host.Outcome State Fault Refusal := cmd (triggerFire u.val) s

/-- HOLDOFF_END (R478). -/
def execHoldoffEnd (u : Fin 32) (s : State) : Host.Outcome State Fault Refusal := cmd (holdoffEnd u.val) s

/-- LDG_ARM (R477). -/
def execLdgArm (v : Word) (s : State) : Host.Outcome State Fault Refusal := cmd (regWrite 0x70008 v (eachUnit armUnit v)) s

/-- LDG_DISARM (R484). -/
def execLdgDisarm (v : Word) (s : State) : Host.Outcome State Fault Refusal := cmd (regWrite 0x7000C v (eachUnit disarmUnit v)) s

/-- LDG_FIRE (R477). -/
def execLdgFire (v : Word) (s : State) : Host.Outcome State Fault Refusal := cmd (regWrite 0x70010 v (eachUnit hostFire v)) s

/-- LDG_CFG_WRITE (R473). -/
def execLdgCfgWrite (v : Word) (s : State) : Host.Outcome State Fault Refusal := cmd (regWrite 0x70000 v (cfgWrite v)) s

end Sys2Proof.Machine
end

