-- ==== Sys2Proof/Machine/Network.lean ====
section
/-! DEFINITION. The station networks (chapter 19): ports, reception under PRP, PTP, and the loss of the port PLL. -/

namespace Sys2Proof.Machine

/-- The order of two Announce messages (R523): each field in turn, the lower the better. -/
def announceKey (a : Announce) : List Nat :=
  [a.prio1, a.clkClass, a.accuracy, a.variance, a.prio2, a.gmId.toNat, a.steps, a.sender.toNat]

/-- Lexicographic order. -/
def lexLt : List Nat → List Nat → Bool
  | a :: r, b :: t => if a < b then true else if b < a then false else lexLt r t
  | [], _ :: _ => true
  | _, [] => false

/-- The states of a pair whose two ports hear masters (R523): the better one is SLAVE, of the same master the first port. -/
def pairStates (p0 : Nat) (s : State) : State :=
  match (port s p0).best, (port s (p0 + 1)).best with
  | some a, some b =>
    let second := lexLt (announceKey b) (announceKey a)
    setPtp p0 (if second then pPassiveSlave else pSlave) (setPtp (p0 + 1) (if second then pSlave else pPassiveSlave) s)
  | _, _ => s

/-- The UTC offset of the master of a SLAVE port, while the time source is PTP (R89, R100). -/
def takeUtc (p : Nat) (s : State) : State :=
  match (port s p).best with
  | some a => if pstate s p == pSlave && rd s TIM_CFG_SRC == 1 then wrWord 0x300C a.utc s else s
  | none => s

/-- A port takes an Announce (R523). -/
def announceIn (p : Nat) (a : Announce) (s : State) : State :=
  let x := port s p
  let take_ := match x.best with
    | none => true
    | some b => x.timedOut || b.sender == a.sender || lexLt (announceKey a) (announceKey b)
  if !take_ then s
  else
    let s := modPort p (fun x => { x with best := some a, bestAt := s.time, timedOut := false }) s
    takeUtc p (if hears s (partnerPort p) then pairStates (2 * (p / 2)) s
      else if pstate s p == pPassiveSlave then s
      else setPtp p pSlave s)

/-! Timestamps (R525), in 1/64 ns. -/

/-- Corrected ingress timestamp. -/
def ingress (s : State) (p : Nat) (raw : Int) : Int := raw - 232 * 64 - (rd s (NET_RXDLY_D p) : Nat)

/-- Corrected egress timestamp. -/
def egress (s : State) (p : Nat) (raw : Int) : Int := raw + 188 * 64 + (rd s (NET_TXDLY_D p) : Nat)

/-- An offset from master: `t2` the Sync's ingress less its correction, `origin` its sending time. The servo takes it from the
SLAVE port while its source is PTP (R522, R523). -/
def syncOffset (p : Nat) (t2 origin : Int) (s : State) : State :=
  match (port s p).mpd with
  | none => s
  | some d =>
    let off := (t2 - origin - d) / 64
    let s := modPort p (fun x => { x with offset := some off }) s
    if pstate s p == pSlave && rd s TIM_CFG_SRC == 1 then measureOffset off s else s

/-- A Sync on a passive slave port whose partner is down or timed out makes it SLAVE (R523). -/
def syncTakes (p : Nat) (s : State) : State :=
  if pstate s p == pPassiveSlave && !hears s (partnerPort p) then setPtp p pSlave s else s

/-- The device's PTP domain (R521). -/
def ptpDomain (s : State) : BitVec 8 := BitVec.ofNat 8 (rd s NET_PTPCFG_DOMAIN)

/-- Sends a PTP message on a port (R521). -/
def ptpOut (p : Nat) (m : PtpMsg) (s : State) : State := sendPort p (.ptp (ptpDomain s) m) s

/-- A PTP message of the device's domain arrives on a port that runs PTP (R521, R523). A Pdelay_Req is answered in two steps: the second
carries the first one's corrected egress, whose raw stamp is free. -/
def ptpMessage (p : Nat) (raw : Int) (m : PtpMsg) (s : State) : State :=
  let t := ingress s p raw
  let slave := slavePair s p
  match m with
  | .announce a => if slave then announceIn p a s else s
  | .sync q two origin corr =>
    if !slave then s
    else
      let s := syncTakes p s
      if !(pstate s p == pSlave || pstate s p == pPassiveSlave) then s
      else if two then modPort p (fun x => { x with syncWait := some (q, t - corr) }) s
      else syncOffset p (t - corr) origin s
  | .followUp q origin corr => (match (port s p).syncWait with
    | some (k, t2) => if k = q && slave then syncOffset p (t2 - corr) origin (modPort p (fun x => { x with syncWait := none }) s) else s
    | none => s)
  | .pdelayReq q => ptpOut p (.pdelayRespFollow q (egress s p (Config.responseStamp p q)) 0) (ptpOut p (.pdelayResp q t) s)
  | .pdelayResp q t2 =>
    if (port s p).pdSeq = q && (port s p).pdT1.isSome then modPort p (fun x => { x with pdT2 := some (q, t2, t) }) s else s
  | .pdelayRespFollow q t3 corr => (match (port s p).pdT1, (port s p).pdT2 with
    | some t1, some (k, t2, t4) =>
      if k = q then
        let d := ((t4 - t1) - (t3 - t2) - corr) / 2
        wrI (NET_MPD_D p) (d / 64) (modPort p (fun x => { x with mpd := some d, pdT2 := none }) s)
      else s
    | _, _ => s)

/-- A PTP message is sent at its interval (R521, R524), a Sync in two steps. `raw` is its raw egress timestamp. -/
def ptpSend (p : Nat) (k : PtpKind) (raw : Int) (s : State) : State :=
  if !ptpPort s p || !portUp s p then s
  else match k with
    | .pdelayReq =>
      let q := (port s p).pdSeq + 1
      ptpOut p (.pdelayReq q) (modPort p (fun x => { x with pdSeq := q, pdT1 := some (egress s p raw), pdT2 := none }) s)
    | .sync =>
      if !masterPort s p then s
      else if !masterSends s then setPtp p pPassive s
      else
        let q := (port s p).txSeq
        let s := modPort p (fun x => { x with txSeq := q + 1 }) (setPtp p pMaster s)
        ptpOut p (.followUp q (egress s p raw) 0) (ptpOut p (.sync q true 0 0) s)
    | .announce =>
      if !masterPort s p then s
      else if !masterSends s then setPtp p pPassive s
      else
        let p0 := 2 * rd s NET_PTPCFG_SPAIR
        let src := if pstate s (p0 + 1) = pSlave then p0 + 1 else p0
        let own : Announce := { prio1 := rd s NET_PTPCFG_PRIO1, prio2 := rd s NET_PTPCFG_PRIO2, gmId := Config.serial, sender := Config.serial, utc := rdWord s 0x300C }
        let a := match (port s src).best with
          | some b => { b with steps := b.steps + 1, sender := Config.serial }
          | none => own
        ptpOut p (.announce a) (setPtp p pMaster s)

/-- A slave port reaches its announce timeout, 3 s after the last Announce of its master (R521, R523). -/
def announceTimeout (p : Nat) (s : State) : State :=
  let x := port s p
  if x.best.isNone || x.timedOut || !slavePair s p || !ptpOn s then s
  else
    let s := { s with time := max s.time (x.bestAt + 3000000000) }
    slavesLost (setPtp p pListening (modPort p (fun x => { x with timedOut := true }) s))

/-! Ports (R515, R517, R531). -/

/-- A port becomes up (R515): it runs, and the PLLs it is clocked from are locked. -/
def bringUp (p : Nat) (s : State) : State :=
  if portUp s p || !rdBit s NET_CFG_PORTEN p || !rdB s CLK_STATUS_PORT_LOCK || !rdB s CLK_STATUS_LOCK || !domainOn s 9 then s
  else
    let st := if !ptpPort s p then pDisabled
      else if slavePair s p then pListening
      else if masterSends s then pMaster else pPassive
    setPtp p st (wrB (NET_PORTSTAT_LINK p) true s)

/-- The port PLL loses lock (R71, R517). -/
def portPllUnlock (s : State) : State :=
  if !rdB s CLK_STATUS_PORT_LOCK then s
  else raiseAll [{ src := .dpxLink, reason := 5 }, { src := .referee, reason := 5 }] (stopPoints (portsDown (wrB CLK_STATUS_PORT_LOCK false s)))

/-! Reception (R516, R519, R520). -/

/-- An SV subscription with the destination (R516). -/
def svDest (s : State) (da : BitVec 48) : Bool :=
  (List.range 16).any fun i => fldB (svEntry s i) 8 0 && fld (svEntry s i) 0 0 48 == da.toNat

/-- A GOOSE subscription of the pair with the destination. -/
def gooseDest (s : State) (process : Bool) (da : BitVec 48) : Bool :=
  (List.range 32).any fun i => gooseEn (subEntry s i) && goosePair (subEntry s i) == process && fld (subEntry s i) 0 0 48 == da.toNat

/-- Whether some consumer of the port takes a frame (R516). -/
def netTakes (s : State) (p : Nat) (f : NetFrame) : Bool :=
  match f.payload with
  | .sv _ => decide (2 ≤ p) && svDest s f.da
  | .goose _ => gooseDest s (decide (2 ≤ p)) f.da
  | .telegram _ => decide (p < 2)
  | .ptp _ _ => ptpPort s p
  | .other => false

/-- Hands a frame to its consumer (R520, R530). -/
def consume (p : Nat) (f : NetFrame) (s : State) : State :=
  match f.payload with
  | .sv l => l.foldl (fun s a => svAsdu f.da a s) s
  | .goose g => gooseFrame (decide (2 ≤ p)) f.da g s
  | .telegram b => telegramCopy (if p = 1 then 1 else 0) f.sa b s
  | .ptp d m => if d = ptpDomain s then ptpMessage p f.raw m s else s
  | .other => s

/-- A frame with a redundancy trailer passes duplicate discard (R519): answers whether it is passed on. -/
def duplicate (pair : Nat) (f : NetFrame) (seq : BitVec 16) (s : State) : State × Bool :=
  let l := kget [] s.net.dups pair
  let put := fun (l : List (BitVec 48 × BitVec 16 × Nat)) (s : State) => { s with net := { s.net with dups := kset [] s.net.dups pair l } }
  match l.find? fun x => x.1 == f.sa && x.2.1 == seq with
  | some x =>
    if s.time < x.2.2 + rd s NET_CFG_FORGET * 1000000 then (count (NET_DUP_CNT_COUNT pair) s, false)
    else (put ((f.sa, seq, s.time) :: l.filter fun y => !(y.1 == f.sa && y.2.1 == seq)) s, true)
  | none => (put (((f.sa, seq, s.time) :: l).take 2048) s, true)

/-- An Ethernet frame is received (R516, R519, R520). -/
def frameIn (p : Nat) (f : NetFrame) (s : State) : State :=
  if !portUp s p then s
  else if !f.fcsOk then count (NET_FCS_CNT_COUNT p) s
  else if f.len < 64 ∨ 1522 < f.len ∨ !netTakes s p f then count (NET_DISC_CNT_COUNT p) s
  else
    let s := match f.trailer with
      | some (lanB, _) => if lanB != (p % 2 == 1) then count (NET_WRONGLAN_CNT_COUNT p) s else s
      | none => s
    let bypass := match f.payload with
      | .telegram _ => true
      | .ptp _ _ => true
      | _ => false
    match f.trailer with
    | some (_, q) =>
      if bypass then consume p f s
      else
        let (s, fresh) := duplicate (p / 2) f q s
        if fresh then consume p f s else s
    | none => consume p f s

/-! The commands. -/

/-- PRP_FRAME_RECEIVED (R519). -/
def execPrpFrameReceived (p : Fin 4) (f : NetFrame) (s : State) : Host.Outcome State Fault Refusal := cmd (frameIn p.val f) s

/-- PRP_SUPERVISION_SEND (R518). -/
def execPrpSupervisionSend (pair : Fin 2) (s : State) : Host.Outcome State Fault Refusal := cmd (sendPair pair.val .supervision) s

/-- PORT_DOWN (R515). -/
def execPortDown (p : Fin 4) (s : State) : Host.Outcome State Fault Refusal := cmd (takeDown p.val) s

/-- PORT_UP (R515). -/
def execPortUp (p : Fin 4) (s : State) : Host.Outcome State Fault Refusal := cmd (bringUp p.val) s

/-- PTP_INTERVAL (R521). -/
def execPtpInterval (p : Fin 4) (k : PtpKind) (raw : Int) (s : State) : Host.Outcome State Fault Refusal := cmd (ptpSend p.val k raw) s

/-- ANNOUNCE_TIMEOUT (R523). -/
def execAnnounceTimeout (p : Fin 4) (s : State) : Host.Outcome State Fault Refusal := cmd (announceTimeout p.val) s

/-- PORT_PLL_UNLOCK (R71). -/
def execPortPllUnlock (s : State) : Host.Outcome State Fault Refusal := cmd portPllUnlock s

end Sys2Proof.Machine
end

