-- ==== Sys2Proof/Machine/Crypto.lean ====
section
/-! DEFINITION. The cryptography of the signed image (R537, R538): SHA-256 and the verification of an RSASSA-PSS
signature of PKCS #1 v2.2 by an RSA-3072 key of public exponent 65,537. The two standards are named by the spec. -/

namespace Sys2Proof.Machine

/-! SHA-256. -/

/-- Round constants 0 to 15. -/
def shaK0 : List Word :=
  [0x428A2F98, 0x71374491, 0xB5C0FBCF, 0xE9B5DBA5, 0x3956C25B, 0x59F111F1, 0x923F82A4, 0xAB1C5ED5,
   0xD807AA98, 0x12835B01, 0x243185BE, 0x550C7DC3, 0x72BE5D74, 0x80DEB1FE, 0x9BDC06A7, 0xC19BF174]
/-- Round constants 16 to 31. -/
def shaK1 : List Word :=
  [0xE49B69C1, 0xEFBE4786, 0x0FC19DC6, 0x240CA1CC, 0x2DE92C6F, 0x4A7484AA, 0x5CB0A9DC, 0x76F988DA,
   0x983E5152, 0xA831C66D, 0xB00327C8, 0xBF597FC7, 0xC6E00BF3, 0xD5A79147, 0x06CA6351, 0x14292967]
/-- Round constants 32 to 47. -/
def shaK2 : List Word :=
  [0x27B70A85, 0x2E1B2138, 0x4D2C6DFC, 0x53380D13, 0x650A7354, 0x766A0ABB, 0x81C2C92E, 0x92722C85,
   0xA2BFE8A1, 0xA81A664B, 0xC24B8B70, 0xC76C51A3, 0xD192E819, 0xD6990624, 0xF40E3585, 0x106AA070]
/-- Round constants 48 to 63. -/
def shaK3 : List Word :=
  [0x19A4C116, 0x1E376C08, 0x2748774C, 0x34B0BCB5, 0x391C0CB3, 0x4ED8AA4A, 0x5B9CCA4F, 0x682E6FF3,
   0x748F82EE, 0x78A5636F, 0x84C87814, 0x8CC70208, 0x90BEFFFA, 0xA4506CEB, 0xBEF9A3F7, 0xC67178F2]

/-- The eight working words. -/
structure ShaState where
  a : Word
  b : Word
  c : Word
  d : Word
  e : Word
  f : Word
  g : Word
  h : Word
  deriving DecidableEq, Repr

/-- The initial hash value. -/
def shaInit : ShaState :=
  ⟨0x6A09E667, 0xBB67AE85, 0x3C6EF372, 0xA54FF53A, 0x510E527F, 0x9B05688C, 0x1F83D9AB, 0x5BE0CD19⟩

/-- One round with its schedule word and constant. -/
def shaRound (x : ShaState) (wk : Word × Word) : ShaState :=
  let s1 := x.e.rotateRight 6 ^^^ x.e.rotateRight 11 ^^^ x.e.rotateRight 25
  let ch := (x.e &&& x.f) ^^^ (~~~x.e &&& x.g)
  let t1 := x.h + s1 + ch + wk.2 + wk.1
  let s0 := x.a.rotateRight 2 ^^^ x.a.rotateRight 13 ^^^ x.a.rotateRight 22
  let maj := (x.a &&& x.b) ^^^ (x.a &&& x.c) ^^^ (x.b &&& x.c)
  ⟨t1 + s0 + maj, x.a, x.b, x.c, x.d + t1, x.e, x.f, x.g⟩

/-- The next word of the message schedule; `w` holds the words so far, newest first. -/
def shaNext (w : List Word) : Word :=
  let p := w.getD 1 0
  let q := w.getD 14 0
  let s1 := p.rotateRight 17 ^^^ p.rotateRight 19 ^^^ p >>> 10
  let s0 := q.rotateRight 7 ^^^ q.rotateRight 18 ^^^ q >>> 3
  s1 + w.getD 6 0 + s0 + w.getD 15 0

/-- Extends the schedule by `n` words. -/
def shaExtend : Nat → List Word → List Word
  | 0, w => w
  | n + 1, w => shaExtend n (shaNext w :: w)

/-- One 64-byte block. -/
def shaBlock (x : ShaState) (b : List Byte) : ShaState :=
  let w := ((chunks 4 16 b).map fun c => BitVec.ofNat 32 (beNat c)).reverse
  let y := ((shaExtend 48 w).reverse.zip (shaK0 ++ shaK1 ++ shaK2 ++ shaK3)).foldl shaRound x
  ⟨x.a + y.a, x.b + y.b, x.c + y.c, x.d + y.d, x.e + y.e, x.f + y.f, x.g + y.g, x.h + y.h⟩

/-- `n` bytes of `v`, most significant first. -/
def beBytes (n v : Nat) : List Byte := (leBytes n v).reverse

/-- The padding of a message of `n` bytes. -/
def shaPad (n : Nat) : List Byte := 0x80 :: List.replicate ((119 - n % 64) % 64) 0 ++ beBytes 8 (8 * n)

/-- SHA-256. -/
def sha256 (m : List Byte) : List Byte :=
  let p := m ++ shaPad m.length
  let x := (chunks 64 (p.length / 64) p).foldl shaBlock shaInit
  [x.a, x.b, x.c, x.d, x.e, x.f, x.g, x.h].flatMap fun w => beBytes 4 w.toNat

/-! RSASSA-PSS. -/

/-- Squares `x` modulo `n`, `k` times. -/
def squareMod (n : Nat) : Nat → Nat → Nat
  | 0, x => x
  | k + 1, x => squareMod n k (x * x % n)

/-- `x` to the power 65,537 modulo `n`. -/
def powF4 (x n : Nat) : Nat := squareMod n 16 x * x % n

/-- MGF1 with SHA-256: 351 bytes, from eleven hashes. -/
def mgf1 (seed : List Byte) : List Byte :=
  ((List.range 11).flatMap fun i => sha256 (seed ++ beBytes 4 i)).take 351

/-- Whether an encoded message of 384 bytes and 3,071 bits encodes hash `h` with a 32-byte salt. -/
def pssOk (em h : List Byte) : Bool :=
  let masked := em.take 351
  let hh := (em.drop 351).take 32
  let db := (masked.zip (mgf1 hh)).map fun x => x.1 ^^^ x.2
  let db := (db.headD 0 &&& 0x7F) :: db.drop 1
  em.getD 383 0 == 0xBC && masked.headD 0 &&& 0x80 == 0 &&
    db.take 318 == List.replicate 318 0 && db.getD 318 0 == 1 &&
    sha256 (List.replicate 8 0 ++ h ++ db.drop 319) == hh

/-- Whether `sig` is a signature over `msg` under a modulus, both of 384 bytes, most significant first (R537). -/
def rsaPssOk (modulus sig msg : List Byte) : Bool :=
  let n := beNat modulus
  let s := beNat sig
  decide (s < n) && pssOk (beBytes 384 (powF4 s n)) (sha256 msg)

end Sys2Proof.Machine
end

