-- ==== Sys2Proof/Machine/Secure.lean ====
section
/-! DEFINITION. Secure boot, identity and attestation (chapter 20): verifying signed images, fuses and floors, the boot ROM and
the start of the firmware, the flash copies, and the attestation report. -/

namespace Sys2Proof.Machine

/-! Kinds (R534). -/

/-- Device firmware. -/
def kFirmware : Nat := 1
/-- Board descriptor. -/
def kBoard : Nat := 2
/-- Revocation. -/
def kRevocation : Nat := 3
/-- Bench program image. -/
def kProgram : Nat := 4
/-- Cell firmware. -/
def kCell : Nat := 5

/-- Body limit of a kind (R537). -/
def bodyLimit : Nat → Nat
  | 1 => 8 * 2 ^ 20
  | 2 => 256 * 1024
  | 3 => 1
  | 4 => 64 * 2 ^ 20
  | 5 => 16 * 2 ^ 20
  | _ => 0

/-- The floor of a kind (R534). -/
def floorOf (s : State) (kind : Nat) : Nat := kget 0 s.sec.floors kind

/-- A slot is programmed and not revoked. -/
def slotUsable (s : State) (k : Nat) : Bool := s.sec.prog.getLsbD k && !s.sec.revoked.getLsbD k

/-- An owner slot is programmed and not revoked (R534). -/
def ownerReady (s : State) : Bool := [4, 5, 6, 7].any (slotUsable s)

/-- The hash in a slot (R533); a blank slot holds none. A vendor slot the state does not list holds what the factory gave it. -/
def slotHash (s : State) (k : Nat) : List Byte :=
  if !s.sec.prog.getLsbD k then [] else kget (if k < 4 then padTo 32 (Config.vendorHash k) else []) s.sec.hashes k

/-- KEYSLOT lies in the class of a kind (R534). -/
def classOk (s : State) (kind slot : Nat) : Bool :=
  if kind = kFirmware then decide (slot < 4)
  else if kind = kRevocation then true
  else decide (4 ≤ slot) && ownerReady s

/-! Verification (R538). -/

/-- The body of an image. -/
def imgBody (image : List Byte) : List Byte := image.drop 1024

/-- MAGIC, HVER and the reserved fields (R537, check 0x01). COMPAT is 0 for kinds other than 0x01 and 0x04. -/
def headerOk (h : List Byte) : Bool :=
  let kind := fld h 5 0 8
  fld h 0 0 32 == 0x34564654 && fld h 4 0 8 == 1 && fld h 6 3 5 == 0 && fld h 7 6 2 == 0 &&
    (kind == kFirmware || kind == kProgram || fld h 12 0 16 == 0) && fld h 14 0 16 == 0 && fld h 20 0 32 == 0 &&
    allZero ((h.drop 56).take 8) && allZero ((h.drop 832).take 192)

/-- An equalisation entry sets no reserved field or code (R119, R120). -/
def eqOk (e : BitVec 64) : Bool :=
  let b := leBytes 8 e.toNat
  fld b 0 4 4 == 0 && decide (fld b 1 0 4 ≤ 12 ∧ fld b 1 4 4 ≤ 6 ∧ fld b 2 0 4 ≤ 12 ∧ fld b 2 4 4 ≤ 12) &&
    fld b 3 2 6 == 0 && allZero (b.drop 4)

/-- The content checks of a kind (R120, R420, check 0x09). -/
def contentOk (s : State) (kind : Nat) (image : List Byte) : Bool :=
  let body := imgBody image
  if kind = kBoard then (Config.boardDesc body).eq.all eqOk
  else if kind = kProgram then (parseImage (split s) [] 0 body).isSome
  else true

/-- What the device keeps of a header (R537). -/
def infoOf (image : List Byte) : ImgInfo :=
  { epoch := fld image 7 0 6, version := BitVec.ofNat 32 (fld image 8 0 32), compat := BitVec.ofNat 16 (fld image 12 0 16)
    hash := (image.drop 24).take 32 }

/-- The reason of the first check an image fails, 0 if it passes (R538). -/
def verifyReason (s : State) (kind : Nat) (image : List Byte) : Nat :=
  let h := padTo 1024 image
  let body := imgBody image
  let slot := fld h 6 0 3
  if image.length < 1024 || !headerOk h then 1
  else if fld h 5 0 8 != kind || !classOk s kind slot then 2
  else if sha256 ((h.drop 64).take 384) != slotHash s slot then 3
  else if s.sec.revoked.getLsbD slot then 4
  else if !rsaPssOk ((h.drop 64).take 384) ((h.drop 448).take 384) (h.take 448) then 5
  else if fld h 16 0 32 == 0 || decide (bodyLimit kind < fld h 16 0 32) || fld h 16 0 32 != body.length then 6
  else if sha256 body != (h.drop 24).take 32 then 7
  else if fld h 7 0 6 < floorOf s kind then 8
  else if !contentOk s kind image then 9
  else 0

/-- A failed verification (R538): SECURITY and its counter. Which master the record names is left open. -/
def verifyFailed (kind reason : Nat) (s : State) : State :=
  let (m, s) := drawFree s
  raiseSrc { src := .security, reason := BitVec.ofNat 8 reason, detail := BitVec.ofNat 16 kind, master := BitVec.ofNat 6 m }
    (count SEC_VFAIL_CNT_COUNT s)

/-- Verifies an image: the reason, and the state with a failure raised. -/
def verify (kind : Nat) (image : List Byte) (s : State) : Nat × State :=
  let r := verifyReason s kind image
  (r, if r = 0 then s else verifyFailed kind r s)

/-! Fuses and floors (R533 to R536). -/

/-- Shows the fuses (R550). -/
def showFuses (s : State) : State :=
  let s := wr SEC_STATUS_PROG s.sec.prog.toNat (wr SEC_STATUS_REVOKED s.sec.revoked.toNat s)
  wr SEC_EPOCH_FW_FLOOR (floorOf s 1) (wr SEC_EPOCH_BD_FLOOR (floorOf s 2) (wr SEC_EPOCH_PRG_FLOOR (floorOf s 4) s))

/-- A write to SEC_FUSE (R533): the key starts the burn of an owner slot. -/
def fuseBurn (v : Word) (s : State) : State :=
  let slot := v.toNat % 8
  if v.toNat / 256 % 256 ≠ 0xC3 then s
  else if s.dev ≠ .setup ∨ slot < 4 ∨ s.sec.prog.getLsbD slot ∨ s.sec.burning.isSome then wrB SEC_STATUS_WRERR true s
  else
    let hash := (List.range 8).flatMap fun n => leBytes 4 (kget 0 s.sec.keyData n).toNat
    wrB SEC_STATUS_BUSY true { s with sec := { s.sec with burning := some (slot, hash) } }

/-- A burn ends: the slot is programmed. -/
def burnDone (s : State) : State :=
  match s.sec.burning with
  | none => s
  | some (slot, hash) =>
    wrB SEC_STATUS_BUSY false (showFuses { s with sec := { s.sec with
      burning := none, prog := s.sec.prog ||| BitVec.ofNat 8 (2 ^ slot), hashes := kset [] s.sec.hashes slot hash } })

/-- Raises the floor of a kind; a floor never falls (R536). -/
def raiseFloor (kind epoch : Nat) (s : State) : State :=
  { s with sec := { s.sec with floors := kmod 0 s.sec.floors kind fun f => max f epoch } }

/-- A program runs (R435). -/
def programRuns (s : State) : Bool := s.bench.pstate != .stopped

/-- EPOCH of the image of a kind now running (R536). -/
def runningEpoch (s : State) (kind : Nat) : Option Nat :=
  if kind = kFirmware then s.sec.fw.map (·.epoch)
  else if kind = kBoard then s.sec.bd.map (·.epoch)
  else if programRuns s then s.bench.image.map (·.epoch) else none

/-- A write to SEC_EPOCH (R536). -/
def epochRaise (v : Word) (s : State) : State :=
  let gos := [(18, kFirmware), (19, kBoard), (20, kProgram)].filter fun g => v.getLsbD g.1
  if gos.isEmpty then s
  else if s.dev ≠ .run then wrB SEC_STATUS_WRERR true s
  else showFuses (gos.foldl (fun s g => match runningEpoch s g.2 with
    | some e => raiseFloor g.2 e s
    | none => s) s)

/-- The slots of a class. -/
def classMask (slot : Nat) : Nat := if slot < 4 then 0x0F else 0xF0

/-- Applies a revocation image, or answers reason 0x0A (R535). -/
def revoke (image : List Byte) (s : State) : Bool × State :=
  let slot := fld image 6 0 3
  let mask := fld image 1024 0 8
  let cls := classMask slot
  let left := s.sec.prog.toNat &&& (255 - (s.sec.revoked.toNat ||| mask)) &&& cls
  if mask &&& (255 - cls) ≠ 0 ∨ left = 0 then (false, s)
  else (true, showFuses { s with sec := { s.sec with revoked := s.sec.revoked ||| BitVec.ofNat 8 mask } })

/-! The flash (R540, R543, R544). -/

/-- Key of a copy: firmware A and B at 0 and 1, board descriptor A and B at 2 and 3. -/
def copyKey (kind : Nat) (b : Bool) : Nat := (if kind = kFirmware then 0 else 2) + bitNat b

/-- A copy; one the directory does not know has no image and write sequence 0. -/
def flashCopy (s : State) (k : Nat) : FlashCopy := kget {} s.sec.flash k

/-- Places a copy. -/
def setCopy (k : Nat) (c : FlashCopy) (s : State) : State :=
  { s with sec := { s.sec with flash := kset {} s.sec.flash k c } }

/-- The copies of a kind that stand in the directory, in descending write sequence. -/
def copiesOf (s : State) (kind : Nat) : List Bool :=
  let has := [false, true].filter fun b => khas s.sec.flash (copyKey kind b)
  let seq := fun b => (flashCopy s (copyKey kind b)).wseq.toNat
  has.mergeSort fun a b => decide (seq b ≤ seq a)

/-- The copy with the lower write sequence, and the next write sequence (R543). -/
def nextCopy (s : State) (kind : Nat) : Bool × BitVec 32 :=
  let a := (flashCopy s (copyKey kind false)).wseq
  let b := (flashCopy s (copyKey kind true)).wseq
  let bLower := decide (b.toNat < a.toNat)
  (bLower, (if bLower then a else b) + 1)

/-- A flash write ends (R543): the copy takes the next write sequence, and its IMG_FINISH completes. -/
def flashWriteDone (s : State) : State :=
  match s.sec.writing with
  | [] => s
  | w :: r =>
    let (_, n) := nextCopy s w.kind
    let s := setCopy (copyKey w.kind w.copyB) { image := w.image, wseq := n, trial := w.kind == kFirmware, tries := 0 } s
    finish w.order .ok [] none { s with sec := { s.sec with writing := r } }

/-- Copies being written when the device is reset have an invalid header (R544). -/
def spoilWrites (s : State) : State :=
  let s := s.sec.writing.foldl (fun s w =>
    let k := copyKey w.kind w.copyB
    setCopy k { flashCopy s k with image := [0xFF] } s) s
  { s with sec := { s.sec with writing := [] } }

/-! Boot (R540 to R542). -/

/-- The firmware copies in order (R540 step 2): the first that passes. -/
def bootFirmware : List Bool → State → Option (Bool × List Byte) × State
  | [], s => (none, s)
  | b :: r, s =>
    let k := copyKey kFirmware b
    let c := flashCopy s k
    if c.trial && decide (2 ≤ c.tries) then bootFirmware r s
    else
      let s := if c.trial then setCopy k { c with tries := c.tries + 1 } s else s
      let (reason, s) := verify kFirmware c.image s
      if reason = 0 then (some (b, c.image), s) else bootFirmware r (wr SEC_BOOTSTAT_REASON reason s)

/-- The board descriptor copies in order (R540 step 3). -/
def bootBoard : List Bool → State → Option (Bool × List Byte) × State
  | [], s => (none, s)
  | b :: r, s =>
    let image := (flashCopy s (copyKey kBoard b)).image
    let (reason, s) := verify kBoard image s
    if reason = 0 then (some (b, image), s) else bootBoard r (wr SEC_BOOTSTAT_REASON reason s)

/-- What the die, the fuses and the certificate give (R548, R583, R588). -/
def showIdentity (s : State) : State :=
  let s := wr GLB_IDENT_VARIANT (Config.partIdent % 3) (wr GLB_IDENT_STEP (1 + Config.partIdent / 3 % 15) s)
  let s := wr GLB_REV_METAL Config.metal s
  let s := wr GLB_SERIAL_LO_SERIAL Config.serial.toNat (wr GLB_SERIAL_HI_SERIAL (Config.serial.toNat / 2 ^ 32) s)
  let s := wr GLB_REFCAL_REFMV Config.refMv.toNat s
  let cert := Config.certificate.take 2048
  let s := wr SEC_CERTLEN_LEN cert.length s
  showFuses (forUpto 512 s fun s n => wr (SEC_CERT_W n) (fld cert (4 * n) 0 32) s)

/-- What the board descriptor gives (R525, R583). -/
def useBoard (b : Bool) (image : List Byte) (s : State) : State :=
  let d := Config.boardDesc (imgBody image)
  let s := { s with sec := { s.sec with bd := some (infoOf image), board := some d } }
  let s := forUpto 4 s fun s p => wr (NET_TXDLY_D p) (d.txDly.getD p 0).toNat (wr (NET_RXDLY_D p) (d.rxDly.getD p 0).toNat s)
  wrB SEC_BOOTSTAT_BDCOPY b (wrB SEC_BOOTSTAT_BDVALID true s)

/-- A device that a supply reset put into RESET is in BOOT again, unless TEST_EN was latched high (R563, R568). -/
def leaveReset (s : State) : State :=
  if s.dev == .reset && s.pwr.supplyReset && !rdB s GLB_STRAP_TEST_EN then
    { s with dev := .boot, pwr := { s.pwr with supplyReset := false } }
  else s

/-- The boot ROM (R540): the fuses' ECC and the supervisor lockstep, the firmware, the board descriptor; a flash that
cannot be read is shown (R550). -/
def bootRom (x : BootChecks) (s : State) : State :=
  let s := leaveReset s
  if s.dev ≠ .boot ∨ s.sec.booted ∨ s.sec.fw.isSome ∨ rd s SEC_BOOTSTAT_CAUSE ≠ 0 then s
  else if !x.ecc then failstop 1 s
  else
    let s := wr PWR_RAILSTAT_GOOD 0x3FF (showIdentity s)
    if !x.flash then wr SEC_BOOTSTAT_CAUSE 2 s else
    let (fw, s) := bootFirmware (copiesOf s kFirmware) s
    match fw with
    | none => wr SEC_BOOTSTAT_CAUSE 1 s
    | some (b, image) =>
      let s := wr DPX_COMPAT_OWN (infoOf image).compat.toNat
        { s with sec := { s.sec with fw := some (infoOf image), fwCopyB := b, booted := true } }
      let s := wrB SEC_BOOTSTAT_FWCOPY b s
      let (bd, s) := bootBoard (copiesOf s kBoard) s
      match bd with
      | some (c, im) => useBoard c im s
      | none => s

/-- The loaded firmware starts (R540 step 4, R542): its TRIAL bit clears, the domains come up and the device is in SETUP. -/
def firmwareStart (s : State) : State :=
  if s.dev ≠ .boot ∨ !s.sec.booted then s
  else
    let k := copyKey kFirmware s.sec.fwCopyB
    let s := setCopy k { flashCopy s k with trial := false } s
    let s := { s with dev := .setup, sec := { s.sec with booted := false, engineAt := s.time } }
    let s := wr GLB_STATUS_DSTATE 2 (wr PWR_DOMSTAT_ON (rd s PWR_DOMSTAT_ON ||| 0xFFF) s)
    if rdB s SEC_BOOTSTAT_BDVALID then s else fault .configIntegrity 2 0 s

/-! Attestation (R547, R549). -/

/-- The report before its signature: 256 bytes. -/
def reportBody (s : State) (nonce : List Byte) : List Byte :=
  let none32 : List Byte := List.replicate 32 0
  let prog := if programRuns s then s.bench.image else none
  let fuses := (List.range 8).flatMap fun k => padTo 32 (slotHash s k)
  leBytes 2 1 ++ [0, 0] ++ leBytes 8 Config.serial.toNat ++ padTo 16 nonce ++ leBytes 8 s.time ++
  leBytes 4 s.tick.toNat ++ leBytes 1 s.role.code ++ leBytes 1 s.conv.code ++
  leBytes 1 (rd s GLB_STRAP_DBG_EN + 2 * rd s DBG_STATUS_EVERHALT + 4 * rd s SEC_BOOTSTAT_BDVALID +
    8 * bitNat (s.bench.pstate == .running)) ++ [0] ++
  leBytes 4 (s.sec.fw.map (·.version.toNat)|>.getD 0) ++ (s.sec.fw.map (·.hash)|>.getD none32) ++
  (s.sec.bd.map (·.hash)|>.getD none32) ++ leBytes 8 (prog.map (·.imageId.toNat)|>.getD 0) ++
  (prog.map (·.hash)|>.getD none32) ++
  sha256 (fuses ++ [s.sec.revoked] ++ leBytes 1 (floorOf s 1) ++ leBytes 1 (floorOf s 2) ++ leBytes 1 (floorOf s 4)) ++
  leBytes 4 Config.romVersion.toNat ++ leBytes 1 (floorOf s 1) ++ leBytes 1 (floorOf s 2) ++ leBytes 1 (floorOf s 4) ++
  List.replicate 65 0

/-- The attestation report of 640 bytes (R549). -/
def attestReport (s : State) (nonce : List Byte) : List Byte :=
  let b := reportBody s nonce
  b ++ padTo 384 (Config.attestSignature b)

/-! The commands. -/

/-- SEC_FUSE_BURN (R533). -/
def execSecFuseBurn (v : Word) (s : State) : Host.Outcome State Fault Refusal := cmd (regWrite 0x88008 v (fuseBurn v)) s

/-- FUSE_BURN_DONE (R533). -/
def execFuseBurnDone (s : State) : Host.Outcome State Fault Refusal := cmd burnDone s

/-- EPOCH_RAISE (R536). -/
def execEpochRaise (v : Word) (s : State) : Host.Outcome State Fault Refusal := cmd (regWrite 0x8800C v (epochRaise v)) s

/-- FIRMWARE_START (R540). -/
def execFirmwareStart (s : State) : Host.Outcome State Fault Refusal := cmd firmwareStart s

/-- BOOT_ROM (R540). -/
def execBootRom (x : BootChecks) (s : State) : Host.Outcome State Fault Refusal := cmdAlways (bootRom x) s

/-- FLASH_WRITE_DONE (R543). -/
def execFlashWriteDone (s : State) : Host.Outcome State Fault Refusal := cmd flashWriteDone s

end Sys2Proof.Machine
end

