-- ==== Sys2Proof/Machine/Power.lean ====
section
/-! DEFINITION. Supplies, domains, battery feeds and temperature (chapter 22), and the resets of the device (R413, R563, R567,
R568). -/

namespace Sys2Proof.Machine

/-- Changes the power state. -/
def modPwr (f : PwrSt → PwrSt) (s : State) : State := { s with pwr := f s.pwr }

/-! The Watch profile (R569, R570). -/

/-- Domain `d` is asked to power up. -/
def request (d : Nat) (s : State) : State := modPwr (fun p => { p with request := kput p.request d s.time }) s

/-- A domain's request is withdrawn. -/
def unrequest (d : Nat) (s : State) : State := modPwr (fun p => { p with request := kdel p.request d }) s

/-- The Watch profile is entered: at the mark at which the lanes start, at the switch mark into Watch, or after a cancelled
change (R570). -/
def watchEntry (s : State) : State :=
  let s := unrequest 2 (unrequest 4 (unrequest 10 s))
  let s := wrB PWR_DOMSTAT_WATCHPROF true s
  let s := wrB PWR_DOMSTAT_MEM_SR (!rdB s PWR_CFG_MEM_WATCH) s
  let s := if rdB s LPE_CFG_PRECHG then (if domainOn s 2 then s else request 2 s) else wrBit PWR_DOMSTAT_ON 2 false s
  pd4Rest s

/-- The Watch profile is left: at the first rate-change set towards full rate, or when the lanes stop. -/
def watchExit (s : State) : State :=
  if !rdB s PWR_DOMSTAT_WATCHPROF then s
  else
    let s := wrB PWR_DOMSTAT_WATCHPROF false s
    let s := if domainOn s 2 then s else request 2 s
    let s := if domainOn s 4 then s else request 4 s
    if rdB s PWR_DOMSTAT_MEM_SR then request 10 s else s

/-- A domain has not reported power-good within 1 ms of its request (R571). -/
def domainTimeout (d : Nat) (s : State) : State :=
  if !khas s.pwr.request d then s
  else fault .supply 4 d { s with time := max s.time (kget 0 s.pwr.request d + 1000000) }

/-- PD12 powers down when flow 37 has been empty for 1 ms (R572). -/
def pd12Idle (s : State) : State :=
  if s.dev == .boot || !domainOn s 12 || flowItems s 37 ≠ 0 then s
  else wrBit PWR_DOMSTAT_ON 12 false { s with time := max s.time (s.sec.engineAt + 1000000) }

/-! Battery feeds (R573 to R576). -/

/-- The board descriptor the feeds are judged by: the one in use, or before the boot the newest copy in the flash. -/
def feedBoard (s : State) : Option BoardDesc :=
  match s.sec.board with
  | some b => some b
  | none => (copiesOf s kBoard).head?.map fun b => Config.boardDesc (imgBody (flashCopy s (copyKey kBoard b)).image)

/-- A feed. -/
def batt (s : State) (n : Nat) : FeedSt := kget {} s.pwr.feeds n

/-- Changes a feed and shows it (R579). -/
def setFeed (n : Nat) (f : FeedSt) (s : State) : State :=
  let s := modPwr (fun p => { p with feeds := kset {} p.feeds n f }) s
  if n = 0 then wr PWR_BATTSTAT_STATE_A f.state (wrB PWR_BATTSTAT_POLG_A f.polg s)
  else wr PWR_BATTSTAT_STATE_B f.state (wrB PWR_BATTSTAT_POLG_B f.polg s)

/-- FEEDEN of a feed. -/
def feedEn (s : State) (n : Nat) : Bool := if n = 0 then rdB s PWR_CFG_FEEDEN_A else rdB s PWR_CFG_FEEDEN_B

/-- The state of a feed at `mv` millivolts with a nominal voltage of `vn` volts (R574). A feed that was in state `old` goes back towards
GOOD only once it is the hysteresis of 0.02 VNOM beyond the bound (DESIGN CHOICE, log entry 49). -/
def feedClass (old vn : Nat) (mv : Int) : Nat :=
  let t : Int := vn * 100
  let up := fun (below : Bool) (x : Int) => if below then x + vn * 20 else x
  if mv ≤ up (old == 1) (-t) then 1
  else if mv < up (old ≤ 1) t then 0
  else if mv < up (old ≤ 2) (8 * t) then 2
  else if mv ≤ (if old = 4 then 12 * t - vn * 20 else 12 * t) then 3
  else 4

/-- A feed may drive its switches (R575): it is LOW, GOOD or HIGH and not more than DIFF % of VNOM below the other. -/
def feedFit (s : State) (n : Nat) : Bool :=
  match feedBoard s with
  | none => false
  | some b =>
    let vn := b.vnom.getD n 0
    feedEn s n && decide (2 ≤ (batt s n).state) &&
      decide ((batt s (1 - n)).mv - (batt s n).mv ≤ ((rd s PWR_CFG_DIFF * vn * 10 : Nat) : Int))

/-- Judges a feed afresh (R575): POLG falls at once, and qualification starts or is broken. -/
def feedJudge (n : Nat) (s : State) : State :=
  let f := batt s n
  if feedFit s n then
    if f.polg || f.qualAt.isSome then s else setFeed n { f with qualAt := some (s.time : Int) } s
  else
    let s := if f.polg then count PWR_POLGOFF_CNT_COUNT s else s
    setFeed n { f with qualAt := none, polg := false } s

/-- Whether sources are raised: not in FAILSTOP, where the device attempts nothing further (R412). -/
def raises (s : State) : Bool := s.dev != .failstop

/-- A feed's voltage has changed its class or its standing against the other feed (R574 to R576). -/
def feedChange (n : Nat) (mv : Int) (s : State) : State :=
  match feedBoard s with
  | none => s
  | some b =>
    let old := (batt s n).state
    let new := feedClass old (b.vnom.getD n 0) mv
    let s := setFeed n { batt s n with state := new, mv := mv } s
    let s := feedJudge 1 (feedJudge 0 s)
    if new ≠ old ∧ new ≠ 3 ∧ feedEn s n ∧ raises s then fault .battery new n s else s

/-- A feed has qualified for 10 ms without a break (R575). -/
def polgQualified (n : Nat) (s : State) : State :=
  let f := batt s n
  match f.qualAt with
  | none => s
  | some t =>
    if f.polg || !feedFit s n then s
    else setFeed n { f with polg := true, qualAt := none } { s with time := max s.time (t + 10000000).toNat }

/-! Temperature (R578). -/

/-- TJMAX of the variant in 1/16 °C (R2). -/
def tjMax : Int := if Config.partIdent % 3 = 1 then 125 * 16 else 105 * 16

/-- The die temperature in 1/16 °C (R578). -/
def temperature (t : Int) (s : State) : State :=
  let lvl := if tjMax + 160 ≤ t then 3 else if tjMax ≤ t then 2 else if tjMax - 160 ≤ t then 1 else 0
  let old := s.pwr.tempOver
  let s := wrI PWR_TEMP_TDIE t s
  let s := modPwr (fun p => { p with tempOver := lvl, thermN := decide (lvl < 3) }) s
  if !raises s then s
  else
    let s := if old < 1 ∧ 1 ≤ lvl then fault .temperature 1 0 s else s
    let s := if old < 2 ∧ 2 ≤ lvl then fault .temperature 2 0 s else s
    setActive .temperature (decide (1 ≤ lvl)) s

/-! Resets. -/

/-- What no reset clears: fuses and floors, the flash (a copy being written is spoilt, R544) and the MRAM; the levels of the
balls that others drive; and the model's own queue and free values. -/
def keepRaw (old s : State) : State :=
  let old := spoilWrites old
  { s with
    sec := { s.sec with prog := old.sec.prog, revoked := old.sec.revoked, hashes := old.sec.hashes, floors := old.sec.floors
                        flash := old.sec.flash }
    bench := { s.bench with mramA := old.bench.mramA, mramB := old.bench.mramB }
    dpx := { s.dpx with grant := old.dpx.grant }
    prot := { s.prot with outs := old.prot.outs.foldl (fun l o =>
      kset {} l o.1 { fbA := o.2.fbA, fbB := o.2.fbB }) [] }
    pending := old.pending, freeCount := old.freeCount }

/-- Shows the levels of the feedback contacts and of GRANT. -/
def showLevels (s : State) : State :=
  interlock (forUpto 4 s fun s k => setSout k (sout s k) s)

/-- PD0's power-on reset (R567): everything at its reset value; the device is in RESET until PORST_N is released. -/
def powerOnReset (s : State) : State := showLevels { keepRaw s State.reset with dev := .reset }

/-- PORST_N (R413, R563): every block is cleared but the fault registers of PD0; the straps are latched, and the level driven
on POLG stays. -/
def externalReset (straps : BitVec 3) (s : State) : State :=
  let n := keepRaw s State.reset
  let n := { n with
    dev := if straps.getLsbD 1 then .reset else .boot
    fcl := { n.fcl with first := s.fcl.first, latSev := s.fcl.latSev }
    pwr := { n.pwr with
      feeds := s.pwr.feeds.map fun f => (f.1, { f.2 with qualAt := f.2.qualAt.map fun t => t - (s.time : Int) })
      thermN := s.pwr.thermN, tempOver := s.pwr.tempOver }
    pin := { n.pin with straps := straps } }
  let n := wr FCL_FSW_LO_F (rd s FCL_FSW_LO_F) (wr FCL_FSW_HI_F (rd s FCL_FSW_HI_F) n)
  let n := wr FCL_FSCAUSE_CAUSE (rd s FCL_FSCAUSE_CAUSE) (wrB FCL_STATUS_PRIOR true n)
  let n := wrB FCL_STATUS_FIRSTV (rdB s FCL_STATUS_FIRSTV) n
  let n := wr GLB_STRAP_DBG_EN (straps.toNat % 2) (wr GLB_STRAP_TEST_EN (straps.toNat / 2 % 2) (wr GLB_STRAP_QSPI_SLOW (straps.toNat / 4) n))
  feedJudge 1 (feedJudge 0 (fclRefresh (showLevels (setFeed 0 (batt n 0) (setFeed 1 (batt n 1) n)))))

/-- A protection timer's start as seen from a Timecount that starts again. -/
def rebase (now : Nat) (t : Option Nat) : Option Nat := t.map fun x => x - now

/-- The running state of PD0's protection when Timecount starts again. -/
def rebaseProt (now : Nat) (p : ProtSt) : ProtSt :=
  { p with
    ins := forUpto 8 [] fun l n =>
      let x := kget ({} : SafeIn) p.ins n
      kset {} l n { x with incSince := rebase now x.incSince }
    outs := forUpto 4 [] fun l k =>
      let x := kget ({} : SafeOut) p.outs k
      kset {} l k { x with
        since := x.since - now, badSince := rebase now x.badSince, disSince := rebase now x.disSince, tpAt := rebase now x.tpAt }
    rx := forUpto 8 [] fun l c =>
      let x := kget ({} : RxConn) p.rx c
      kset {} l c { x with
        lastAcc := x.lastAcc - now, copies := [], lastCopy0 := rebase now x.lastCopy0, lastCopy1 := rebase now x.lastCopy1 }
    inService := []
    key1 := none }

/-- Whether a register keeps its value when every domain but PD0 is reset (R568): GLB, PWR, PRT and FCL. -/
def inPd0 (a : Nat) : Bool :=
  decide (a < 0x2000 ∨ (0x48000 ≤ a ∧ a < 0x50000) ∨ (0x58000 ≤ a ∧ a < 0x60000))

/-- A core-type rail outside its fault window for 10 µs (R568): every domain but PD0 is reset, the lasers are dark, the
heartbeat stops, the safety outputs de-energise, and the device is in RESET. -/
def supplyReset (rail : Nat) (s : State) : State :=
  if !([0, 1, 3, 4, 8, 9].contains rail) || s.dev == .reset || s.dev == .failstop then s
  else
    let s := deEnergiseAll s
    let n := keepRaw s State.reset
    let n := { n with
      dev := .reset
      regs := s.regs.filter fun r => inPd0 r.1
      tabs := s.tabs.filter fun e => e.1 / 65536 == 0x09 || e.1 / 65536 == 0x0A
      fcl := { s.fcl with
        shadows := s.fcl.shadows.map fun h => { h with ends := h.ends - s.time }
        blockReq := false, reacted := false, toTrip := false, toBlock := false, superseded := false, setFrom := 0, setEnd := 0 }
      prot := rebaseProt s.time s.prot
      pwr := { n.pwr with
        feeds := s.pwr.feeds.map fun f => (f.1, { f.2 with qualAt := f.2.qualAt.map fun t => t - (s.time : Int) })
        thermN := s.pwr.thermN, tempOver := s.pwr.tempOver, supplyReset := true }
      pin := { n.pin with straps := s.pin.straps } }
    let n := wr PWR_DOMSTAT_ON 0x1109 (wrB PWR_DOMSTAT_MEM_SR false (wrB PWR_DOMSTAT_WATCHPROF false n))
    interlock (wrB GLB_CTRL_RUN false (wr GLB_STATUS_DSTATE 1 (wrBit PWR_RAILSTAT_GOOD rail false n)))

/-- A rail outside its warning window for 10 µs (R568). -/
def supplyWarn (rail : Nat) (s : State) : State :=
  if !raises s then s
  else fault .supply 1 rail (wrBit PWR_RAILSTAT_WARN rail true (count PWR_SUPPLY_CNT_COUNT s))

/-- A rail outside its fault window for 2 µs (R568); VAON (rail 2) resets the whole device. -/
def supplyFault (rail : Nat) (s : State) : State :=
  if rail = 2 then powerOnReset s
  else if !raises s then s
  else fault .supply 2 rail (setActive .supply true (wrBit PWR_RAILSTAT_GOOD rail false (count PWR_SUPPLY_CNT_COUNT s)))

/-! The commands. -/

/-- EXTERNAL_RESET (R413). -/
def execExternalReset (straps : BitVec 3) (s : State) : Host.Outcome State Fault Refusal := cmdAlways (externalReset straps) s

/-- PD0_POWER_ON_RESET (R567). -/
def execPd0PowerOnReset (s : State) : Host.Outcome State Fault Refusal := cmdAlways powerOnReset s

/-- SUPPLY_WARN (R568). -/
def execSupplyWarn (rail : Fin 10) (s : State) : Host.Outcome State Fault Refusal := cmdAlways (supplyWarn rail.val) s

/-- SUPPLY_FAULT (R568). -/
def execSupplyFault (rail : Fin 10) (s : State) : Host.Outcome State Fault Refusal := cmdAlways (supplyFault rail.val) s

/-- SUPPLY_RESET (R568). -/
def execSupplyReset (rail : Fin 10) (s : State) : Host.Outcome State Fault Refusal := cmdAlways (supplyReset rail.val) s

/-- DOMAIN_POWER_TIMEOUT (R571). -/
def execDomainPowerTimeout (d : Fin 13) (s : State) : Host.Outcome State Fault Refusal := cmd (domainTimeout d.val) s

/-- PD12_IDLE_OFF (R572). -/
def execPd12IdleOff (s : State) : Host.Outcome State Fault Refusal := cmd pd12Idle s

/-- FEED_STATE_CHANGE (R574). -/
def execFeedStateChange (feedB : Bool) (mv : Int) (s : State) : Host.Outcome State Fault Refusal :=
  cmdAlways (feedChange (bitNat feedB) mv) s

/-- POLG_QUALIFIED (R575). -/
def execPolgQualified (feedB : Bool) (s : State) : Host.Outcome State Fault Refusal := cmdAlways (polgQualified (bitNat feedB)) s

/-- TEMPERATURE (R578). -/
def execTemperature (t : Int) (s : State) : Host.Outcome State Fault Refusal := cmdAlways (temperature t) s

end Sys2Proof.Machine
end

