-- ==== Sys2Proof/Machine/TickRegs.lean ====
section
/-! DEFINITION. The writes to the tick engine's registers (R3, R16, R17, R44 to R46, R59, R67, R68) and debug halts (R65, R66,
R589, R590). -/

namespace Sys2Proof.Machine

/-! The launch check (R44 to R47). -/

/-- The largest flight of any ranged cell, in whole full-rate symbols (R46, R47): the DS_DELAY that the cell table holds, as it was
last sent, rounded up (DESIGN CHOICE, log entry 58). -/
def largestFlight (s : State) : Nat :=
  s.cells.foldl (fun m c => if c.2.ranged then max m ((c.2.ent.dsDelay.toNat + 15) / 16) else m) 0

/-- A write to TCK_CFG, TCK_LAUNCH or TCK_MAXFLIGHT is refused with its reason (R68). -/
def tckRefuse (reason : Nat) (s : State) : State := wrB TCK_CHECK_REJ true (wr TCK_CHECK_REASON reason s)

/-- The launch check (R44). -/
def launchFits (m : LaneMode) (launch flight : Nat) : Bool :=
  decide (launch + frameLen m + flight ≤ tickSyms m false - 32)

/-- An assigned cell stands at a slot that mode `m` lacks (R16). -/
def slotLacking (m : LaneMode) (s : State) : Bool :=
  s.cells.any fun c => c.2.ent.avail != .empty && decide (slotsOf m ≤ c.1 % 128)

/-- R17 for one cell: it is to be ranged afresh. Its AVAIL follows at the next mark (R25). -/
def voidRange (c : Cell) : Cell :=
  if c.ent.avail = .empty then c
  else
    { c with
      ent := { c.ent with rvoid := true, txOffset := 0, dsDelay := 0, rangeTick := 0 }
      dyn := { c.dyn with dsExact := 0, usExact := 0, acc := 0, cnt := 0, holdTill := none, confirm := none, refEnd := none, parked := none
                          reached := false } }

/-- An AVAIL that a cell to be ranged afresh cannot keep (R17). -/
def needsRange (a : Avail) : Bool := a == .available || a == .refreshing || a == .missing

/-- A lane mode of a code. -/
def modeOf : Nat → LaneMode
  | 0 => .swift
  | 1 => .dense
  | _ => .deep

/-- A change of lane mode is accepted (R16, R17, R45, R474). -/
def changeMode (m : LaneMode) (s : State) : State :=
  let s := wr TCK_CFG_MODE m.code s
  let s := wr TCK_LAUNCH_LAUNCH (defaultLaunch m) (wr TCK_MAXFLIGHT_MAXFLIGHT (defaultFlight m) s)
  let s := { s with
    cells := s.cells.foldl (fun l c => kmod {} l c.1 voidRange) s.cells
    avails := s.avails ++ (s.cells.filter fun c => needsRange c.2.ent.avail).map fun c =>
      { addr := BitVec.ofNat 13 c.1, target := .unranged }
    lanes := forUpto 64 s.lanes fun l k => kmod {} l k fun x => { x with discRtt := none, sweep := 0 } }
  ringsRestart s

/-- A write to TCK_CFG (R3, R16, R45). The mode in force written again is no change of mode: in DORMANT it loads the mode's defaults
and voids no ranging; in another state it writes MISS_LIMIT and is not refused (DESIGN CHOICE, log entry 57). -/
def tckCfg (v : Word) (s : State) : State :=
  let mode := v.toNat % 4
  let miss := v.toNat / 4 % 4
  let m := modeOf mode
  if mode = 3 ∨ miss = 0 then tckRefuse 7 s
  else if mode = rd s TCK_CFG_MODE then
    let s := wr TCK_CFG_MISS_LIMIT miss s
    if s.conv = .dormant then wr TCK_LAUNCH_LAUNCH (defaultLaunch m) (wr TCK_MAXFLIGHT_MAXFLIGHT (defaultFlight m) s) else s
  else if s.conv ≠ .dormant then tckRefuse 1 s
  else if m = .deep ∧ lacksDeep s then tckRefuse 2 s
  else if slotLacking m s then tckRefuse 3 s
  else changeMode m (wr TCK_CFG_MISS_LIMIT miss s)

/-- A write to TCK_LAUNCH (R44). -/
def tckLaunch (v : Word) (s : State) : State :=
  let l := v.toNat % 2 ^ 14
  if !launchFits (laneMode s) l (rd s TCK_MAXFLIGHT_MAXFLIGHT) then tckRefuse 4 s
  else if l < earliestLaunch (laneMode s) then tckRefuse 5 s
  else wr TCK_LAUNCH_LAUNCH l s

/-- A write to TCK_MAXFLIGHT (R44, R46). -/
def tckMaxflight (v : Word) (s : State) : State :=
  let f := v.toNat % 2 ^ 12
  if !launchFits (laneMode s) (rd s TCK_LAUNCH_LAUNCH) f then tckRefuse 4 s
  else if f < largestFlight s then tckRefuse 6 s
  else wr TCK_MAXFLIGHT_MAXFLIGHT f s

/-! The ST commit (R59). -/

/-- The first mark whose fence a write at the present Timecount clears (R58, R59). -/
def firstClear (s : State) : Tick := if inFence s then s.tick + 2 else s.tick + 1

/-- TCK_COMMIT.GO (R59); a request while one is pending has no effect (R585). -/
def commitGo (v : Word) (s : State) : State :=
  if !v.getLsbD 0 || rdB s TCK_COMMIT_GO then s
  else wrB TCK_COMMIT_GO true { s with commitAt := some (firstClear s) }

/-! Debug (R65 to R67, R589, R590). -/

/-- A DEBLOCK is accepted and pending. -/
def deblockPending (s : State) : Bool := s.accepted.any fun a => a.cmd.opc == .deblock

/-- The reason for which R65 refuses a halt or a freeze, 0 if none. -/
def debugBar (s : State) : Nat :=
  if !rdB s GLB_STRAP_DBG_EN then 1
  else if s.role ≠ .solo then 2
  else if s.conv = .deblocked ∨ deblockPending s then 3
  else 0

/-- A debug request is refused (R590). -/
def debugRefuse (reason : Nat) (s : State) : State :=
  wrB DBG_STATUS_REFUSED true (wr DBG_STATUS_REASON reason (count DBG_REFUSE_CNT_COUNT s))

/-- A write to TCK_FREEZE (R67, R590). -/
def tckFreeze (v : Word) (s : State) : State :=
  if !v.getLsbD 0 then wrB TCK_FREEZE_FREEZE false { s with freeze := false }
  else if s.freeze then s
  else
    let r := debugBar s
    if r ≠ 0 then debugRefuse r s else wrB TCK_FREEZE_FREEZE true { s with freeze := true }

/-- Halts executor `e` (R65, R590). -/
def haltExec (e : Nat) (s : State) : State :=
  if s.bench.halted.getLsbD e then s
  else
    let r := debugBar s
    if r ≠ 0 then debugRefuse r s
    else if !execUsable s e then debugRefuse 4 s
    else
      let s := { s with bench := { s.bench with halted := s.bench.halted ||| BitVec.ofNat 16 (2 ^ e) } }
      wrB DBG_STATUS_EVERHALT true (wrBit DBG_HALT_HALT e true s)

/-- A halt request through DBG_HALT, or through JTAG, which may name the supervisor with bit 16 (R65, R590). -/
def dbgHalt (jtag : Bool) (v : Word) (s : State) : State :=
  let s := if jtag && v.getLsbD 16 then debugRefuse 5 s else s
  forUpto 16 s fun s e => if v.getLsbD e then haltExec e s else s

/-- A write to DBG_RESUME (R589). -/
def dbgResume (v : Word) (s : State) : State :=
  forUpto 16 s fun s e =>
    if v.getLsbD e && s.bench.halted.getLsbD e then
      wrBit DBG_HALT_HALT e false { s with bench := { s.bench with
        halted := s.bench.halted &&& ~~~(BitVec.ofNat 16 (2 ^ e)) } }
    else s

/-! The commands. -/

/-- TCK_CFG_WRITE (R45). -/
def execTckCfgWrite (v : Word) (s : State) : Host.Outcome State Fault Refusal := cmd (regWrite 0x4000 v (tckCfg v)) s

/-- TCK_LAUNCH_WRITE (R44). -/
def execTckLaunchWrite (v : Word) (s : State) : Host.Outcome State Fault Refusal := cmd (regWrite 0x4004 v (tckLaunch v)) s

/-- TCK_MAXFLIGHT_WRITE (R46). -/
def execTckMaxflightWrite (v : Word) (s : State) : Host.Outcome State Fault Refusal := cmd (regWrite 0x4008 v (tckMaxflight v)) s

/-- TCK_COMMIT_GO (R59). -/
def execTckCommitGo (v : Word) (s : State) : Host.Outcome State Fault Refusal := cmd (regWrite 0x4024 v (commitGo v)) s

/-- TCK_FREEZE_WRITE (R67). -/
def execTckFreezeWrite (v : Word) (s : State) : Host.Outcome State Fault Refusal := cmd (regWrite 0x4028 v (tckFreeze v)) s

/-- DBG_HALT (R590). -/
def execDbgHalt (jtag : Bool) (v : Word) (s : State) : Host.Outcome State Fault Refusal := 
  cmd (if jtag then dbgHalt true v else regWrite 0x90000 v (dbgHalt false v)) s

/-- DBG_RESUME (R589). -/
def execDbgResume (v : Word) (s : State) : Host.Outcome State Fault Refusal := cmd (regWrite 0x90004 v (dbgResume v)) s

end Sys2Proof.Machine
end

