-- ==== Sys2Proof/Machine/RegWrite.lean ====
section
/-! DEFINITION. Register writes (R9, R58, R59, R581 to R587, R600): the fields a write changes by their access codes and ranges,
the registers whose blocks give a write another effect, the snapshot sets, and the writes held for a domain that is off. -/

namespace Sys2Proof.Machine

/-! Plain registers. -/

/-- The value a written word gives a field. -/
def given (v : Word) (f : Field) : Nat := v.toNat / 2 ^ f.lo % 2 ^ f.width

/-- A one-bit field of a written word. -/
def givenB (v : Word) (f : Field) : Bool := given v f == 1

/-- Places a field as the written word gives it. -/
def take (v : Word) (f : Field) (s : State) : State := wr f (given v f) s

/-- The WRERR bit of the block of the register at address `a`, where it has one (R600). -/
def wrerrOf (a : Nat) : Option Field :=
  if a < 0x1000 then some GLB_STATUS_WRERR
  else if a < 0x2000 then none
  else if a < 0x3000 then some CLK_STATUS_WRERR
  else if a < 0x4000 then some TIM_STATUS_WRERR
  else if a < 0x10000 then none
  else if a < 0x14000 then some (LNK_STATUS_WRERR ((a - 0x10000) / 0x100))
  else if a < 0x14500 then some (LNP_STATUS_WRERR ((a - 0x14000) / 0x100))
  else if a < 0x20000 then none
  else if a < 0x28000 then some MEA_SAR_STAT_WRERR
  else if a < 0x31000 then none
  else if a < 0x31200 then some (OSC_STAT_WRERR ((a - 0x31000) / 0x20))
  else if a < 0x58000 then none
  else if a < 0x60000 then some FCL_STATUS_WRERR
  else if a < 0x68000 then some BEN_PSTAT_WRERR
  else if a < 0x70000 then some FMN_STATUS_WRERR
  else if a < 0x78000 then some LDG_STATUS_WRERR
  else if a < 0x79000 then some (HST_STAT_WRERR ((a - 0x78000) / 0x100))
  else if a < 0x80000 then some (HST_STAT_WRERR 0)
  else if a < 0x88000 then none
  else if a < 0x90000 then some SEC_STATUS_WRERR
  else none

/-- A write to the register at address `a` is recorded as ignored or refused. -/
def wrerr (a : Nat) (s : State) : State :=
  match wrerrOf a with
  | some f => wrB f true s
  | none => s

/-- A write places a reserved code or a value out of range in a field (R600). -/
def outOfRange (r : RegSpec) (v : Word) : Bool :=
  r.fields.any fun f => (f.acc == .rw || f.acc == .st) && !f.range.allows (v.toNat / 2 ^ f.lo % 2 ^ f.width)

/-- The counter layout of R410. -/
def isCounter (r : RegSpec) : Bool := r.fields == [⟨0, 31, .ro, .any⟩, ⟨31, 1, .w1c, .any⟩]

/-- What a write makes of one field (R9). -/
def writeField (v : Word) (w : Word) (f : FieldSpec) : Word :=
  let x := v.toNat / 2 ^ f.lo % 2 ^ f.width
  match f.acc with
  | .rw => putBits w f.lo f.width x
  | .w1c => putBits w f.lo f.width ((w.toNat / 2 ^ f.lo % 2 ^ f.width) &&& (2 ^ f.width - 1 - x))
  | _ => w

/-- The fields of access ST as a held write keeps them. -/
def stValue (r : RegSpec) (v : Word) : Word :=
  r.fields.foldl (fun w f => if f.acc == .st then putBits w f.lo f.width (v.toNat / 2 ^ f.lo) else w) 0

/-- A write to a register whose fields follow their access codes alone: a counter clears with its SAT bit, an ST write is held
(R59), other fields change at once. -/
def plainWrite (r : RegSpec) (a : Nat) (v : Word) (s : State) : State :=
  if outOfRange r v then wrerr a s
  else if isCounter r then (if v.getLsbD 31 then wrWord a 0 s else s)
  else if r.fields.any fun f => f.acc == .st then
    wrB TCK_COMMIT_PEND true { s with stWrites := s.stWrites ++ [{ addr := a, value := stValue r v, at_ := s.time }] }
  else wrWord a (r.fields.foldl (writeField v) (rdWord s a)) s

/-- A field written only under a condition: a write that would change it outside the condition is recorded and leaves it. -/
def guarded (ok : Bool) (a : Nat) (v : Word) (f : Field) (s : State) : State :=
  if ok || given v f == rd s f then take v f s else wrerr a s

/-! Registers with effects of their own. -/

/-- GLB_CTRL.RUN (R551, R556): a request outside SETUP is refused at once. -/
def glbRun (v : Word) (s : State) : State :=
  if !v.getLsbD 0 then s
  else if s.dev ≠ .setup then wrB GLB_STATUS_WRERR true (wr GLB_STATUS_RUNREJ 3 s)
  else wrB GLB_CTRL_RUN true s

/-- Some command that needs the DRAM executes (R572): accepted and not waiting for PD10. -/
def dramBusy (s : State) : Bool :=
  s.accepted.any fun c => !s.pwr.dramHeld.contains c.order &&
    (c.cmd.opc == .progLoad || c.cmd.opc == .imgSlice || c.cmd.opc == .imgFinish || c.cmd.opc == .cellFw || c.cmd.opc == .ledgerFetch)

/-- PD10 returns to self-refresh when no command needs it (R572). -/
def memRest (s : State) : State :=
  if rdB s PWR_DOMSTAT_WATCHPROF && !rdB s PWR_CFG_MEM_WATCH && !dramBusy s && s.pwr.dramHeld.isEmpty then
    unrequest 10 (wrB PWR_DOMSTAT_MEM_SR true s)
  else s

/-- PWR_CFG (R569, R575, R579). -/
def pwrCfgWrite (v : Word) (s : State) : State :=
  let s := take v PWR_CFG_DIFF (take v PWR_CFG_FEEDEN_A (take v PWR_CFG_FEEDEN_B (take v PWR_CFG_MEM_WATCH s)))
  let s := if rdB s PWR_CFG_MEM_WATCH then (if rdB s PWR_DOMSTAT_MEM_SR then request 10 s else s) else memRest s
  feedJudge 1 (feedJudge 0 s)

/-- CLK_CFG (R73, R83, R87, R100): FORCE_B selects REFCLK_B while it is good, and its clearing a good REFCLK_A. Delay-locked mode takes
NINT 200 and FRAC 0 and ends a pending commit; after it the divider keeps NINT 200 until software commits (DESIGN CHOICE, log entry 63). -/
def clkCfgWrite (v : Word) (s : State) : State :=
  let mode := given v CLK_CFG_SRC_MODE
  let moved := mode ≠ rd s CLK_CFG_SRC_MODE
  let force := rdB s CLK_CFG_FORCE_B
  let s := guarded (s.dev == .setup) 0x2000 v CLK_CFG_SRC_MODE s
  let s := if moved ∧ rd s CLK_CFG_SRC_MODE = 1 then
      wrB CLK_COMMIT_GO false (wrB CLK_COMMIT_PEND false
        { s with clk := { s.clk with nint := 200, frac := 0, fracNext := none }, servo := { s.servo with value := 0, offset := none } })
    else s
  let s := take v CLK_CFG_REVERT (take v CLK_CFG_FORCE_B s)
  let now := rdB s CLK_CFG_FORCE_B
  if now && !force && rdB s CLK_STATUS_B_OK then selectRef true s
  else if !now && force && rdB s CLK_STATUS_A_OK then selectRef false s
  else s

/-- CLK_FRAC (R69, R73). -/
def clkFracWrite (v : Word) (s : State) : State :=
  if servoOwns s then wrB CLK_STATUS_WRERR true s
  else
    let f := clampFrac (signed 24 (given v CLK_FRAC_FRAC))
    let s := wr CLK_FRAC_FRAC f.toNat s
    if f.toNat = given v CLK_FRAC_FRAC then s else wrB CLK_STATUS_WRERR true s

/-- TIM_CFG (R91, R93): SRC FREE shows FREERUN and ends the loss of a source. -/
def timCfgWrite (v : Word) (s : State) : State :=
  let s := take v TIM_CFG_SRC (take v TIM_CFG_SLEW (take v TIM_CFG_STEPTHR s))
  if rd s TIM_CFG_SRC = 0 then
    setActive .ptpLoss false (wr TIM_STATUS_TSTATE 0 { s with servo := { s.servo with inBand := 0, offset := none } })
  else s

/-- TIM_TRIG_CTRLn (R97, R99, R600): a unit armed with its target already past fires late; a TARGET that the action does not have is out of
range. -/
def trigCtrlWrite (n : Nat) (v : Word) (s : State) : State :=
  let act := given v (TIM_TRIG_CTRL_ACTION n)
  let tgt := given v (TIM_TRIG_CTRL_TARGET n)
  if (act = 1 ∧ 63 < tgt) ∨ (act = 3 ∧ 31 < tgt) then wrB TIM_STATUS_WRERR true s
  else
  let was := trigArmed s n
  let s := take v (TIM_TRIG_CTRL_ARM n) (take v (TIM_TRIG_CTRL_TICKREF n) (take v (TIM_TRIG_CTRL_ACTION n) (take v (TIM_TRIG_CTRL_TARGET n) s)))
  let bit := BitVec.ofNat 16 (2 ^ n)
  let s := if was && trigArmed s n then s
    else { s with clk := { s.clk with late := s.clk.late &&& ~~~bit, passed := s.clk.passed &&& ~~~bit } }
  if !was && trigArmed s n && trigPast s n s.time then { s with clk := { s.clk with late := s.clk.late ||| bit } } else s

/-- LNK_CTRL of star lane `l` (R109, R121). EN counts at the next lane start. -/
def lnkCtrlWrite (l : Nat) (v : Word) (s : State) : State :=
  let a := 0x10000 + 0x100 * l
  let dark := s.conv == .dormant
  take v (LNK_CTRL_EN l)
    (guarded dark a v (LNK_CTRL_LOOP l) (guarded dark a v (LNK_CTRL_PATTERN l) (guarded dark a v (LNK_CTRL_EQSEL l) s)))

/-- LNK_CTRL of a Dovetail lane or the referee lane (R121). These lanes ignore EN. -/
def lnpCtrlWrite (k : Nat) (v : Word) (s : State) : State :=
  let a := 0x14000 + 0x100 * k
  let dark := s.role == .solo && !rdB s (LNP_STATUS_UP k)
  take v (LNP_CTRL_EN k)
    (guarded dark a v (LNP_CTRL_LOOP k) (guarded dark a v (LNP_CTRL_PATTERN k) (guarded dark a v (LNP_CTRL_EQSEL k) s)))

/-- LNK_BRST (R116): START + WIDTH at most 76. -/
def brstWrite (l : Nat) (v : Word) (s : State) : State :=
  if 76 < given v (LNK_BRST_START l) + given v (LNK_BRST_WIDTH l) then wrB (LNK_STATUS_WRERR l) true s
  else take v (LNK_BRST_START l) (take v (LNK_BRST_WIDTH l) s)

/-- MEA_SDCFG (R58, R214, R248): DIV and CLKEN take effect at the first mark whose fence the write clears. -/
def sdCfgWrite (v : Word) (s : State) : State :=
  let s := take v MEA_SDCFG_DIV (take v MEA_SDCFG_CLKEN s)
  let x := some (rd s MEA_SDCFG_DIV, rd s MEA_SDCFG_CLKEN)
  if inFence s then { s with meas := { s.meas with sdLate := x } } else { s with meas := { s.meas with sdNext := x, sdLate := none } }

/-- MEA_SAR_MASK (R236): bit 16 reads 1 and ignores writes. -/
def sarMaskWrite (v : Word) (s : State) : State := take (v ||| 0x10000) MEA_SAR_MASK_MASK s

/-- MEA_SDCHn (R215): SAMP_DLY is less than the clock period minus 5 ns. -/
def sdChWrite (n : Nat) (v : Word) (s : State) : State :=
  if rd s MEA_SDCFG_DIV ≤ given v (MEA_SDCH_SAMP_DLY n) + 5 then wrB MEA_SAR_STAT_WRERR true s
  else take v (MEA_SDCH_EN n) (take v (MEA_SDCH_INV n) (take v (MEA_SDCH_SAMP_DLY n) s))

/-- LPE_CFG (R281, R569, R570): in Watch, PRECHG powers PD2. -/
def lpeCfgWrite (v : Word) (s : State) : State :=
  let s := take v LPE_CFG_PRECHG (take v LPE_CFG_STALE s)
  if rdB s PWR_DOMSTAT_WATCHPROF && !rdB s LPE_CFG_PRECHG then unrequest 2 (wrBit PWR_DOMSTAT_ON 2 false s) else s

/-- The detector's configuration passes R284; FLO and FHI are compared with each other once the detector is enabled. -/
def oscCfgOk (d a : Nat) (s : State) : Bool :=
  let all := rdB s (OSC_CFG_EN d)
  let top : F32 := of32 (min 5000 (100000000 / tickNs (laneMode s)))
  let flo := rdWord s (OSC_FLO_V d).addr
  let fhi := rdWord s (OSC_FHI_V d).addr
  let is := fun (f : Field) => all || decide (a = f.addr)
  (!is (OSC_FLO_V d) || le32 (of32 5) flo) && (!is (OSC_FHI_V d) || le32 fhi top) &&
    (!is (OSC_AMP_V d) || le32 0 (rdWord s (OSC_AMP_V d).addr)) && (!is (OSC_HYS_V d) || le32 0 (rdWord s (OSC_HYS_V d).addr)) &&
    (!is (OSC_CFG_MREQ d) || decide (2 ≤ rd s (OSC_CFG_MREQ d))) && (!all || lt32 flo fhi)

/-- A write to a detector's configuration (R284): it applies from the next mark. -/
def oscWrite (d : Nat) (r : RegSpec) (a : Nat) (v : Word) (s : State) : State :=
  let n := plainWrite r a v s
  if oscCfgOk d a n then setOsc d { oscSt n d with dirty := true } n else wrB (OSC_STAT_WRERR d) true s

/-- DPX_CFG (R374, R552): PAIRED and UNIT in SETUP only. The block has no WRERR of its own. -/
def dpxCfgWrite (v : Word) (s : State) : State :=
  let ok := s.dev == .setup
  refreshTakeover (take v DPX_CFG_SKEW_OK (take v DPX_CFG_CONFIRM (take v DPX_CFG_DVL_TICKS
    (guarded ok 0x14 v DPX_CFG_PAIRED (guarded ok 0x14 v DPX_CFG_UNIT s)))))

/-- NET_CFG (R515, R532): a port whose PORTEN bit clears goes down. -/
def netCfgWrite (v : Word) (s : State) : State :=
  let s := take v NET_CFG_PORTEN (take v NET_CFG_ANEG (take v NET_CFG_FORGET s))
  forUpto 4 s fun s p => if rdBit s NET_CFG_PORTEN p then s else takeDown p s

/-- NET_PTPCFG (R522): in SETUP only. A port that is up takes the state its new role gives it. -/
def ptpCfgWrite (r : RegSpec) (v : Word) (s : State) : State :=
  let n := plainWrite r 0x80004 v s
  if n = s then s
  else if s.dev ≠ .setup then wrB GLB_STATUS_WRERR true s
  else forUpto 4 n fun s p =>
    if !portUp s p then s
    else if !ptpPort s p then setPtp p pDisabled s
    else if slavePair s p then setPtp p pListening s
    else setPtp p (if masterSends s then pMaster else pPassive) s

/-- BEN_CFG (R415): SPLIT only with the program STOPPED. -/
def benCfgWrite (v : Word) (s : State) : State :=
  take v BEN_CFG_CHG_WAIT (guarded (s.bench.pstate == .stopped) 0x60000 v BEN_CFG_SPLIT s)

/-- FMN_CFG (R451): SVCAFF in SETUP; one that names no executor of PD3 is refused, with the write. -/
def fmnCfgWrite (v : Word) (s : State) : State :=
  let named := (List.range (execCount s)).any fun e => (given v FMN_CFG_SVCAFF).testBit e && !inPd4 s e
  if !named then wrerr 0x68000 s
  else take v FMN_CFG_STALL_TICKS (guarded (s.dev == .setup) 0x68000 v FMN_CFG_SVCAFF s)

/-- FMN_FLOWCFGn (R462): in SETUP; the SERVERS of all flows sum to at most 160; KIND of flows 36 to 41 is not writable. -/
def flowCfgWrite (n : Nat) (v : Word) (s : State) : State :=
  let a := 0x68100 + 8 * n
  let fixed := decide (36 ≤ n ∧ n ≤ 41)
  let sum := ((List.range 48).map fun k => if k = n then given v (FMN_FLOWCFG_SERVERS n) else rd s (FMN_FLOWCFG_SERVERS k)).sum
  if 160 < sum ∨ s.dev ≠ .setup then wrerr a s
  else guarded (!fixed) a v (FMN_FLOWCFG_KIND n) (take v (FMN_FLOWCFG_SERVERS n) (take v (FMN_FLOWCFG_PRIO n) s))

/-- HST_CTRL (R510, R511). A write through the VF shows that it is enabled. -/
def hstCtrlWrite (n : Nat) (v : Word) (pf : Bool) (s : State) : State :=
  if v.getLsbD 0 then contextAttach n (!pf || (hctx s n).vfOn) s else contextDetach n s

/-- A ring register (R510): only while the context is OFF. -/
def ringWrite (n : Nat) (r : RegSpec) (a : Nat) (v : Word) (s : State) : State :=
  if hstate s n == hOff then plainWrite r a v s else wrB (HST_STAT_WRERR n) true s

/-- SEC_KEYDATAn (R533). -/
def keyDataWrite (n : Nat) (v : Word) (s : State) : State :=
  { s with sec := { s.sec with keyData := kset 0 s.sec.keyData n v } }

/-! Snapshot sets (R587). -/

/-- Shows a record in its 12 words. -/
def showRec (f : Nat → Field) (r : Option FaultRec) (s : State) : State :=
  let b := match r with
    | some r => recBytes r
    | none => []
  forUpto 12 s fun s w => wr (f w) (fld b (4 * w) 0 32) s

/-- FCL_LATCH captures FCL_FIRST and the 16 ring records (R414). -/
def fclLatch (s : State) : State :=
  let s := wr FCL_LATCH_LSEQ (rd s FCL_LATCH_LSEQ + 1) s
  let s := if s.fcl.ring.isEmpty then s else wr FCL_LATCH_HEAD ((s.fcl.ringPos + 15) % 16) s
  let s := showRec FCL_FIRST_W s.fcl.first s
  forUpto 16 s fun s k => showRec (FCL_REC_W ((s.fcl.ringPos + 15 - k) % 16)) (s.fcl.ring[k]?) s

/-- A write to a block's latch register. -/
def latchBlock : LatchBlock → State → State
  | .mea, s => meaLatch s
  | .lvs, s => lvsLatch s
  | .sel, s => selLatch s
  | .fcl, s => fclLatch s
  | .fmn, s => fmnLatch s
  | .ldg, s => ldgLatch s

/-- Address of a latch register. -/
def latchAddr : LatchBlock → Nat
  | .mea => 0x21080
  | .lvs => 0x38004
  | .sel => 0x40000
  | .fcl => 0x58020
  | .fmn => 0x68010
  | .ldg => 0x70014

/-- NET_GOOSECFG (R532, R600): T0 is not below T1. -/
def gooseCfgWrite (v : Word) (s : State) : State :=
  if 1000 * given v NET_GOOSECFG_T0 < given v NET_GOOSECFG_T1 then s else take v NET_GOOSECFG_T0 (take v NET_GOOSECFG_T1 s)

/-! The write of a register. -/

/-- Writes whose effect stands on the register's own address. -/
def ownWrite (a : Nat) (v : Word) : Option (State → State) :=
  match a with
  | 0x10 => some (glbRun v)
  | 0x1000 => some (pwrCfgWrite v)
  | 0x2000 => some (clkCfgWrite v)
  | 0x2008 => some (clkFracWrite v)
  | 0x200C => some (clkCommit v)
  | 0x2018 => some (clkSyncWrite v)
  | 0x3000 => some (timCfgWrite v)
  | 0x3010 => some timLatch
  | 0x302C => some (timSetGo v)
  | 0x4000 => some (tckCfg v)
  | 0x4004 => some (tckLaunch v)
  | 0x4008 => some (tckMaxflight v)
  | 0x4024 => some (commitGo v)
  | 0x4028 => some (tckFreeze v)
  | 0x20000 => some (sdCfgWrite v)
  | 0x21000 => some (sarMaskWrite v)
  | 0x21004 => some (sarTrigWrite v)
  | 0x21010 => some (calWrite v)
  | 0x21080 => some meaLatch
  | 0x28000 => some (flcRst false v)
  | 0x28004 => some (flcRst true v)
  | 0x30000 => some (lpeCfgWrite v)
  | 0x38004 => some lvsLatch
  | 0x40000 => some selLatch
  | 0x48004 => some (prtReset v)
  | 0x50000 => some (dpxCfgWrite v)
  | 0x58000 => some (fswClear false v)
  | 0x58004 => some (fswClear true v)
  | 0x58014 => some fun s =>
    let s := if v.getLsbD 0 then firstClr s else s
    if v.getLsbD 1 then wrB FCL_STATUS_PRIOR false s else s
  | 0x58020 => some fclLatch
  | 0x60000 => some (benCfgWrite v)
  | 0x68000 => some (fmnCfgWrite v)
  | 0x68010 => some fmnLatch
  | 0x70000 => some (cfgWrite v)
  | 0x70008 => some (eachUnit armUnit v)
  | 0x7000C => some (eachUnit disarmUnit v)
  | 0x70010 => some (eachUnit hostFire v)
  | 0x70014 => some ldgLatch
  | 0x80000 => some (netCfgWrite v)
  | 0x80008 => some (gooseCfgWrite v)
  | 0x88008 => some (fuseBurn v)
  | 0x8800C => some (epochRaise v)
  | 0x90000 => some (dbgHalt false v)
  | 0x90004 => some (dbgResume v)
  | _ => none

/-- Writes whose effect stands on a register of an array. -/
def arrayWrite (r : RegSpec) (a : Nat) (v : Word) (pf : Bool) (s : State) : State :=
  if 0x3100 ≤ a ∧ a < 0x3300 ∧ a % 0x20 = 0xC then trigCtrlWrite ((a - 0x3100) / 0x20) v s
  else if 0x10000 ≤ a ∧ a < 0x14000 ∧ a % 0x100 = 0 then lnkCtrlWrite ((a - 0x10000) / 0x100) v s
  else if 0x10000 ≤ a ∧ a < 0x14000 ∧ a % 0x100 = 8 then brstWrite ((a - 0x10000) / 0x100) v s
  else if 0x10000 ≤ a ∧ a < 0x14000 ∧ a % 0x100 = 0xC then echoWrite ((a - 0x10000) / 0x100) v s
  else if 0x14000 ≤ a ∧ a < 0x14500 ∧ a % 0x100 = 0 then lnpCtrlWrite ((a - 0x14000) / 0x100) v s
  else if 0x20100 ≤ a ∧ a < 0x20160 then sdChWrite ((a - 0x20100) / 4) v s
  else if 0x31000 ≤ a ∧ a < 0x31200 ∧ a % 0x20 < 0x14 then oscWrite ((a - 0x31000) / 0x20) r a v s
  else if 0x61000 ≤ a ∧ a < 0x61600 ∧ a % 0x10 = 0xC then wrWord a 0 s
  else if 0x68100 ≤ a ∧ a < 0x68280 ∧ a % 8 = 0 then flowCfgWrite ((a - 0x68100) / 8) v s
  else if 0x78000 ≤ a ∧ a < 0x79000 ∧ a % 0x100 = 0 then hstCtrlWrite ((a - 0x78000) / 0x100) v pf s
  else if 0x78000 ≤ a ∧ a < 0x79000 ∧ 8 ≤ a % 0x100 ∧ a % 0x100 < 0x1C then ringWrite ((a - 0x78000) / 0x100) r a v s
  else if a = 0x80004 then ptpCfgWrite r v s
  else if 0x88010 ≤ a ∧ a < 0x88030 then keyDataWrite ((a - 0x88010) / 4) v s
  else plainWrite r a v s

/-- A write reaches the register at address `a` (R582, R586, R600): a value out of range leaves the whole register, unless the
register's rule judges it itself; a write to an address the map does not list is ignored. -/
def applyWrite (a : Nat) (v : Word) (pf : Bool) (s : State) : State :=
  match regSpecAt a with
  | none => s
  | some r => match ownWrite a v with
    | some f => if outOfRange r v && !(a == 0x4000 || a == 0x4004 || a == 0x4008) then wrerr a s else f s
    | none => if outOfRange r v then wrerr a s else arrayWrite r a v pf s

/-- A write through a function's BAR0 (R486, R487, R514, R586): a VF reaches its context's window, and neither HST_PERM nor
HST_LEAD. -/
def busWrite (a : Nat) (v : Word) (be : BitVec 4) (pf : Bool) (s : State) : State :=
  if be ≠ 0xF ∨ a % 4 ≠ 0 ∨ (!pf ∧ (a < 0x78000 ∨ 0x79004 ≤ a)) ∨ (regSpecAt a).isNone then s
  else regWrite a v (fun s =>
    if !pf && (a == 0x79000 || a % 0x100 == 0x1C) then wrerr a s else applyWrite a v pf s)
    -- PRECHG 1 in Watch powers PD2 up, and the write is applied once it is (R570, R584)
    (if a = 0x30000 ∧ v.getLsbD 0 ∧ rdB s PWR_DOMSTAT_WATCHPROF ∧ !domainOn s 2 then request 2 s else s)

/-- The writes held for domain `d` are applied, oldest first (R584). -/
def applyHeld (d : Nat) (s : State) : State :=
  let due := s.pwr.held.filter fun x => domainOf x.1 == d
  let s := modPwr (fun p => { p with held := p.held.filter fun x => domainOf x.1 != d }) s
  due.foldl (fun s x => applyWrite x.1 x.2 true s) s

/-- An engine step powers PD12 up (R546, R572), and the writes held for it apply. -/
def engineOn (s : State) : State :=
  applyHeld 12 (wrBit PWR_DOMSTAT_ON 12 true { s with sec := { s.sec with engineAt := s.time } })

/-! The commands. -/

/-- REGISTER_WRITE (R600). -/
def execRegisterWrite (a v : Word) (be : BitVec 4) (pf : Bool) (s : State) : Host.Outcome State Fault Refusal :=
  cmd (busWrite a.toNat v be pf) s

/-- SNAPSHOT_LATCH (R587). -/
def execSnapshotLatch (b : LatchBlock) (s : State) : Host.Outcome State Fault Refusal :=
  cmd (regWrite (latchAddr b) 0 (latchBlock b)) s

/-- GLB_CTRL_RUN (R551). -/
def execGlbCtrlRun (v : Word) (s : State) : Host.Outcome State Fault Refusal := cmd (regWrite 0x10 v (glbRun v)) s

end Sys2Proof.Machine
end

