-- ==== Sys2Proof/Machine/Tables.lean ====
section
/-! DEFINITION. The checks of a staged batch (R8, R499, R608): every entry on its own, and the relations between entries
on the tables as they would stand once the batch and every batch accepted before it have committed. -/

namespace Sys2Proof.Machine

/-! Reasons of a refusal (R608). -/

/-- A value out of range, or a relation between entries that fails. -/
def rsRange : Nat := 1
/-- A check against a state. -/
def rsState : Nat := 2
/-- A conflict with what has been accepted. -/
def rsConflict : Nat := 3
/-- A count or a capacity. -/
def rsLimit : Nat := 4
/-- Any other refusal of the command's own chapter. -/
def rsBlock : Nat := 5

/-! Field checks. -/

/-- The masked bits of the bytes named are 0. -/
def rsvZero (e : List Byte) (l : List (Nat × Nat)) : Bool :=
  l.all fun x => (e.getD x.1 0).toNat &&& x.2 == 0

/-- Bytes `a` to `b` are 0. -/
def zeroBytes (e : List Byte) (a b : Nat) : Bool := ((e.drop a).take (b + 1 - a)).all fun x => x == 0

/-- Field of `w` bits at byte `b`, bit `lo`, within `mn` to `mx`. -/
def inRange (e : List Byte) (b lo w mn mx : Nat) : Bool :=
  let v := fld e b lo w
  decide (mn ≤ v ∧ v ≤ mx)

/-- A binary32 field. -/
def fl32 (e : List Byte) (b : Nat) : F32 := BitVec.ofNat 32 (fld e b 0 32)

/-- A finite number that is not subnormal. -/
def plainNum (v : F32) : Bool :=
  fin32 v && (decide (v.toNat / 2 ^ 23 % 256 ≠ 0) || decide (v.toNat % 2 ^ 23 = 0))

/-- A number that is not negative. -/
def notNeg (v : F32) : Bool := le32 0 v

/-- A source code of R261, its HOLD flag aside. -/
def sourceOk (code : Nat) : Bool :=
  let c := code % 0x8000
  decide (c ≤ 0x27 ∨ (0x100 ≤ c ∧ c ≤ 0x2FF) ∨ (0x300 ≤ c ∧ c ≤ 0x33F) ∨ (0x400 ≤ c ∧ c ≤ 0x40B) ∨
    (0x410 ≤ c ∧ c ≤ 0x41B) ∨ c = 0x600 ∨ c = 0x601 ∨ (0x700 ≤ c ∧ c ≤ 0x707))

/-- A signal of the channel table (R471): a source up to 0x041B, or 0x2000 + a cell's address. -/
def signalOk (c : Nat) : Bool := (sourceOk c && decide (c ≤ 0x41B)) || decide (0x2000 ≤ c ∧ c < 0x4000)

/-! Tables as they would stand. -/

/-- The tables a batch is checked on: the staged tables and the cells. -/
structure Proj where
  tabs  : KeyList (List Byte)
  cells : KeyList Cell

/-- The fields of a cell-table entry that a batch writes (R18, R19, R22). -/
def writeCellEnt (e : List Byte) (c : Cell) : Cell :=
  { c with ent := { c.ent with
      serial := BitVec.ofNat 64 (fld e 0 0 64), arm := BitVec.ofNat 4 (fld e 8 0 4), ctype := BitVec.ofNat 2 (fld e 8 4 2)
      boot := fldB e 8 6, dtClass := BitVec.ofNat 2 (fld e 9 0 2), mpClass := BitVec.ofNat 4 (fld e 9 2 4)
      capUf := BitVec.ofNat 16 (fld e 10 0 16) } }

/-- The change of AVAIL that a written entry asks for (R21, R22, R601): a new SERIAL makes the address EMPTY or UNRANGED; otherwise the
AVAIL written acts as R22 says. -/
def writtenAvail (e : List Byte) (c : CellEntry) : Option Avail :=
  if fld e 0 0 64 ≠ c.serial.toNat then some (if fld e 0 0 64 = 0 then .empty else .unranged)
  else match fld e 12 0 4 with
    | 2 => if c.avail = .faulted ∨ c.avail = .outOfService then some (if c.rvoid then .unranged else .available) else none
    | 7 => if c.avail = .available ∨ c.avail = .refreshing ∨ c.avail = .missing ∨ c.avail = .faulted then some .outOfService else none
    | _ => none

/-- A cell once a written entry has committed, its AVAIL among its fields. -/
def layCell (e : List Byte) (c : Cell) : Cell :=
  let d := writeCellEnt e c
  { d with ent := { d.ent with avail := (writtenAvail e c.ent).getD c.ent.avail } }

/-- The 32 bytes of a cell-table entry (R18). -/
def cellEntryBytes (e : CellEntry) : List Byte :=
  leBytes 8 e.serial.toNat ++ leBytes 1 (e.arm.toNat + 16 * e.ctype.toNat + 64 * bitNat e.boot) ++
  leBytes 1 (e.dtClass.toNat + 4 * e.mpClass.toNat) ++ leBytes 2 e.capUf.toNat ++
  leBytes 1 (e.avail.code + 16 * bitNat e.rvoid) ++ [e.lastFault, 0, 0] ++ leBytes 2 e.txOffset.toNat ++
  leBytes 2 e.dsDelay.toNat ++ leBytes 4 e.rangeTick.toNat ++ leBytes 8 0

/-- A slot-table entry as stored: PRESET is not (R260). -/
def slotStored (e : List Byte) : List Byte := leBytes 1 ((e.getD 0 0).toNat &&& 0xBF) ++ e.drop 1

/-- Places one entry of a batch; swap requests are no table content. -/
def layEntry (t i : Nat) (e : List Byte) (p : Proj) : Proj :=
  if t = 0x02 then { p with cells := kmod {} p.cells i (layCell e) }
  else if t = 0x10 then p
  else { p with tabs := setTabIn p.tabs t i (if t = 0x07 then slotStored e else e) }

/-- The entries of a record with their indices. -/
def entriesOf (r : BatchRec) : List (Nat × List Byte) := r.entries.zipIdx.map fun x => (r.first + x.2, x.1)

/-- Places the records of a batch in order. -/
def layRecs (rs : List BatchRec) (p : Proj) : Proj :=
  rs.foldl (fun p r => (entriesOf r).foldl (fun p x => layEntry r.table x.1 x.2 p) p) p

/-- The tables once some batches have committed, in the order given. -/
def projectedBy (s : State) (l : List Batch) : Proj :=
  l.foldl (fun p b => layRecs (recsOf b.body).1 p) { tabs := s.tabs, cells := s.cells }

/-- The tables once every accepted batch has committed, in order of acceptance. -/
def projected (s : State) : Proj := projectedBy s s.batches

/-- The tables as they stand at mark `t`, with the batches in `more` accepted too: those committed by then, by their marks and, at one
mark, in order of acceptance (R60). -/
def projectedAt (s : State) (more : List Batch) (t : Tick) : Proj :=
  projectedBy s (((s.batches ++ more).filter fun b => tickGe t b.mark).mergeSort fun a b => tickGe b.mark a.mark)

/-! Converter states at a tick (R499). -/

/-- The states a class 9 command could bring from a state. -/
def broughtBy (c : HostCmd) (st : ConvState) : List ConvState :=
  match c.opc, st with
  | .laneStart, .dormant => [.watch]
  | .laneStop, .watch => [.dormant]
  | .laneStop, .ready => [.dormant]
  | .laneStop, .blocked => [.dormant]
  | .laneStop, .tripped => [.dormant]
  | .rateChange, .watch => if fldB c.param 0 0 then [] else [.ready]
  | .rateChange, .ready => if fldB c.param 0 0 then [.watch] else []
  | .deblock, .ready => [.deblocked]
  | .blockOrderly, .deblocked => [.ready]
  | .block, .watch => [.blocked]
  | .block, .ready => [.blocked]
  | .block, .deblocked => [.blocked]
  | .blockAck, .blocked => [.watch, .ready]
  | _, _ => []

/-- The converter states possible at tick `t` once the commands given are accepted too. -/
def statesAt (s : State) (more : List (HostCmd × Tick)) (t : Tick) : List ConvState :=
  let cs := (s.accepted.map fun a => (a.cmd, a.tick)) ++ more
  let cs := (cs.filter fun x => tickGe t x.2 && x.1.opc.cls == some 9).mergeSort fun a b => tickGe b.2 a.2
  let init : List ConvState := match s.numChange with
    | some n => (match n.kind with
      | .rateToFull => [s.conv, .ready]
      | .rateToWatch => [s.conv, .watch]
      | .laneStart => [s.conv, .watch]
      | .laneStop => [s.conv, .dormant])
    | none => [s.conv]
  cs.foldl (fun l x => (l ++ l.flatMap (broughtBy x.1)).eraseDups) init

/-! Entries on their own. Each check answers the reason of its refusal, 0 if it passes. -/

/-- An arm-table entry (R11, R12, R289, R290, R314, R315). -/
def armOk (e : List Byte) : Bool :=
  rsvZero e [(0, 0xFE), (1, 0xFF), (3, 0xF0), (4, 0xE0), (5, 0xF0), (52, 0xFE)] && zeroBytes e 16 31 && zeroBytes e 53 63 &&
  inRange e 2 0 12 0 2048 && inRange e 5 0 4 0 8 && inRange e 44 0 16 1 65535 && inRange e 46 0 16 1 65535 &&
  inRange e 48 0 8 1 255 && inRange e 49 0 8 1 255 && inRange e 50 0 16 1 65535 &&
  (!fldB e 0 0 ||
    (let i := fld e 6 0 16
     let h := fl32 e 32
     let kt := fl32 e 36
     let bw := fl32 e 40
     let th := fl32 e 12
     decide (i ≤ 0x27 ∨ (0x100 ≤ i ∧ i ≤ 0x1FF) ∨ i = 0xFFFF) && !(fld e 4 0 2 == 1 && fld e 8 0 16 == 0) &&
     plainNum th && notNeg th && plainNum h && notNeg h && plainNum kt && notNeg kt && plainNum bw && lt32 0 bw &&
     decide (fld e 44 0 16 ≤ fld e 46 0 16)))

/-- A cell-table entry (R15, R18, R20, R22, R186, R601). `deb`: the converter could be DEBLOCKED at the commit mark. -/
def cellFault (s : State) (deb : Bool) (p : Proj) (a : Nat) (e : List Byte) : Nat :=
  let serial := fld e 0 0 64
  let av := fld e 12 0 4
  let old := (cellIn p.cells a).ent
  let new := (writeCellEnt e (cellIn p.cells a)).ent
  if !(rsvZero e [(8, 0x80), (9, 0xC0), (12, 0xE0)] && zeroBytes e 14 15 && zeroBytes e 24 31 && inRange e 8 0 4 0 11 &&
      inRange e 8 4 2 0 1 && inRange e 9 2 4 0 12 && (av == 0 || av == 2 || av == 7)) then rsRange
  else if serial ≠ 0 ∧ (fld e 10 0 16 = 0 ∨
      40 + 10 * fld e 9 2 4 < [15, 25, 35, 50].getD (fld e 9 0 2) 0 + 10) then rsRange
  else if serial ≠ 0 ∧ slotsOf (laneMode s) ≤ a % 128 then rsLimit
  else if deb && (old.serial != new.serial || old.arm != new.arm || old.ctype != new.ctype || old.boot != new.boot) &&
      old.avail != .outOfService && old.avail != .empty && old.avail != .bypassed then rsState
  else 0

/-- The ranging record (R159). -/
def rangingOk (e : List Byte) : Bool :=
  rsvZero e [(0, 0xFC), (1, 0xF0), (2, 0xF8)] && zeroBytes e 4 15 && inRange e 1 0 4 0 12 && inRange e 2 0 3 0 5 &&
  inRange e 3 0 8 1 64

/-- A sampled-value subscription (R230). -/
def svOk (e : List Byte) : Bool :=
  rsvZero e [(8, 0xFC), (11, 0xFF), (16, 0x80)] && zeroBytes e 48 63 && inRange e 9 0 5 1 16 && inRange e 9 5 3 0 4 &&
  inRange e 10 0 8 1 255 && inRange e 12 0 16 1 10000 && inRange e 16 0 7 1 127

/-- A threshold comparator of a chain descriptor (R254). -/
def thrOk (e : List Byte) (b : Nat) : Bool :=
  rsvZero e [(b + 8, 0xF8)] && zeroBytes e (b + 10) (b + 11) && notNeg (fl32 e (b + 4)) && inRange e (b + 9) 0 8 1 255

/-- A chain descriptor (R241, R246, R254). TSYNC 0 is judged on a chain that is to run (DESIGN CHOICE, log entry 69). -/
def chainOk (s : State) (c : Nat) (e : List Byte) : Bool :=
  rsvZero e [(0, 0xE0), (1, 0x80), (2, 0xC0), (3, 0x80), (6, 0xF8), (7, 0xC0)] && zeroBytes e 32 63 &&
  (if isSd c then inRange e 1 0 7 4 64 && inRange e 3 0 7 4 64 && fld e 4 0 16 == 0
    else fld e 1 0 7 == 0 && fld e 3 0 7 == 0 && inRange e 4 0 16 1 65535) &&
  inRange e 2 0 6 1 32 && inRange e 6 0 2 0 2 && thrOk e 8 && thrOk e 20 &&
  (if isSd c then !chEn e || chInterp e || decide (tickNs (laneMode s) % tOut (rd s MEA_SDCFG_DIV) c e = 0) else !chInterp e) &&
  (!chGrid e || (isSd c && decide (chGridN e * 11 * chNomf e * tOut (rd s MEA_SDCFG_DIV) c e ≤ 10 ^ 10) &&
    decide (chGridN e * 11 * chNomf e * tickNs (laneMode s) ≤ 10 ^ 10)))

/-- A coefficient bank (R255) that is symmetric (R250). -/
def bankOk (e : List Byte) : Bool :=
  let n := fld e 0 0 7
  let coef := fun (i : Nat) => fld e (16 + 3 * i) 0 24
  rsvZero e [(0, 0x80)] && zeroBytes e 1 3 && zeroBytes e 12 15 && zeroBytes e 208 255 && decide (2 ≤ n ∧ n ≤ 64) &&
  ((List.range 64).all fun i => if i < n then coef i == coef (n - 1 - i) else coef i == 0)

/-- A bank that a batch may not write (R250): the active one, one being faded to or from, or one that a queued swap or a swap
in an accepted batch names. -/
def bankBusy (s : State) (i : Nat) : Bool :=
  let c := i / 2
  let b := i % 2 == 1
  let x := chain s c
  x.bankB == b || x.fade.isSome || (match x.queued with | some q => q.target == b | none => false) ||
  (s.batches.any fun a => (recsOf a.body).1.any fun r => r.table == 0x10 && r.entries.any fun e =>
    fld e 0 0 8 == c && fldB e 1 0 == b)

/-- The operation words that run (R263). -/
def runningOps (e : List Byte) : List (List Byte) := (slOps e).takeWhile fun o => fld o 0 0 8 != 0

/-- The source codes that the operation words of a slot name, whether or not they run (R264), with FSRC of a PR slot. -/
def slotOperands (e : List Byte) : List Nat :=
  ((slOps e).map fun o => fld o 2 0 16) ++ (((slOps e).filter fun o => !fldB o 1 3).map fun o => fld o 4 0 16) ++
  (if slType e = tyPr then [slFsrc e] else [])

/-- A slot-table entry on its own (R260, R263, R264, R268, R269, R275). -/
def slotOk (s : State) (e : List Byte) : Bool :=
  let ty := slType e
  let p := fun (i : Nat) => rat32 (slP e i)
  let ops := runningOps e
  let live := ops.map fun o => fld o 0 0 8
  rsvZero e [(0, 0x80), (1, 0xF8), (6, 0xC0), (7, 0xC0)] && zeroBytes e 9 15 && zeroBytes e 80 127 && decide (ty ≤ 7) &&
  (if ty = tyXform then decide (fld e 1 0 2 ≤ 2) else fld e 1 0 2 == 0) &&
  (if ty = tyPr then sourceOk (slFsrc e) else slFsrc e == 0) &&
  ((List.range 16).all fun i => plainNum (slP e i)) &&
  ((slOps e).all fun o => decide (fld o 0 0 8 ≤ 0x0B) && rsvZero o [(1, 0xF0)] && sourceOk (fld o 2 0 16) &&
    (if fldB o 1 3 then plainNum (fl32 o 4) else zeroBytes o 6 7 && sourceOk (fld o 4 0 16))) &&
  (ty == tyOff || ((live.filter fun c => c == 0x0B).length == 1 && decide ((live.filter fun c => c == 0x0A).length ≤ 1))) &&
  (ty != tyPi || (decide (0 ≤ p 1) && decide (p 2 ≤ p 3) && decide (p 4 ≤ p 5))) &&
  (ty != tyPr || (slAct e &&
    decide (2 * (piFix : Rat) / 2 ^ 640 * p 3 * (11 / 10) * slNomf e * (tickNs (laneMode s)) / 10 ^ 9 ≤ 1 / 2))) &&
  (ty != tyRep || (slAct e && decide (slG0 e ≤ 23) && decide (slG1 e ≤ 23 ∨ slG1 e = 0x3F) &&
    decide (p 1 + 2 * (if p 2 < 0 then -p 2 else p 2) ≤ 1) && decide (0 < p 3) && decide (0 < p 4)))

/-- The loop output map (R283). -/
def outMapOk (e : List Byte) : Bool :=
  zeroBytes e 24 63 && ((List.range 12).all fun a =>
    let c := fld e (2 * a) 0 16
    decide ((0x200 ≤ c ∧ c ≤ 0x2FF) ∨ c = 0xFFFF))

/-- The limit of a comparator (R368): positive while it is enabled. -/
def limitOk (on : Bool) (v : F32) : Bool := plainNum v && (!on || lt32 0 v)

/-- The protection table (R368, R369). -/
def protOk (e : List Byte) : Bool :=
  ((List.range 12).all fun a =>
    let b := 8 * a
    rsvZero e [(b, 0x80), (b + 1, 0xF8)] && zeroBytes e (b + 2) (b + 3) && inRange e b 0 6 0 23 && inRange e (b + 1) 0 3 1 4 &&
    limitOk (fldB e b 6) (fl32 e (b + 4))) &&
  rsvZero e [(96, 0x80), (97, 0x80), (98, 0xC0), (99, 0xFF), (107, 0xF0), (109, 0xFF)] && zeroBytes e 112 127 &&
  inRange e 96 0 6 0 39 && inRange e 97 0 6 0 39 && inRange e 98 0 3 1 4 && inRange e 98 3 3 1 7 &&
  limitOk (fldB e 96 6 || fldB e 97 6) (fl32 e 100) && inRange e 106 0 8 1 255 && inRange e 107 0 4 1 8 &&
  inRange e 108 0 8 2 16 &&
  ((List.range 8).all fun n =>
    let b := 128 + 8 * n
    rsvZero e [(b, 0xF8)] && zeroBytes e (b + 4) (b + 7) && inRange e (b + 1) 0 8 1 255 && inRange e (b + 2) 0 16 1 1000) &&
  ((List.range 4).all fun k =>
    let b := 192 + 16 * k
    rsvZero e [(b, 0xF0), (b + 1, 0xFF)] && zeroBytes e (b + 14) (b + 15) && inRange e (b + 4) 0 16 50 1000 &&
    inRange e (b + 6) 0 16 10 10000 && inRange e (b + 8) 0 16 1 1000 && inRange e (b + 10) 0 16 1 1000 &&
    inRange e (b + 12) 0 16 1 1000) &&
  ((List.range 8).all fun c =>
    let b := 256 + 32 * c
    rsvZero e [(b + 12, 0xFC)] && zeroBytes e (b + 20) (b + 31) && inRange e (b + 14) 0 16 2 10000 &&
    inRange e (b + 16) 0 16 1 65535 && inRange e (b + 18) 0 16 1 1000) &&
  ((List.range 8).all fun c =>
    let b := 512 + 32 * c
    rsvZero e [(b + 12, 0xFE), (b + 13, 0xFF)] && zeroBytes e (b + 16) (b + 31) && inRange e (b + 14) 0 16 1 65535)

/-- A fault-table entry (R402, R404). -/
def faultOk (i : Nat) (e : List Byte) : Bool :=
  rsvZero e [(0, 0xF8), (1, 0xFF)] && zeroBytes e 4 7 && inRange e 0 0 3 0 5 && decide (fld e 8 0 64 < 2 ^ 47) &&
  (decide (i < 22 ∨ 25 < i) || decide (4 ≤ fld e 0 0 3))

/-- An event-task wait entry (R454). -/
def waitOk (e : List Byte) : Bool :=
  rsvZero e [(8, 0xFE), (9, 0xFF)] && zeroBytes e 12 15 && fldB e 0 0 && inRange e 10 0 16 1 65535

/-- An event route entry (R456). -/
def routeOk (e : List Byte) : Bool :=
  let c := fld e 0 0 16
  rsvZero e [(2, 0xC0), (3, 0xC0)] && inRange e 3 0 6 1 63 &&
  decide (c < 80 ∨ (0x100 ≤ c ∧ c < 0x120) ∨ (0x200 ≤ c ∧ c < 0x200 + 47) ∨ (0x300 ≤ c ∧ c ≤ 0x305) ∨
    (0x400 ≤ c ∧ c < 0x420) ∨ c = 0xFFFF)

/-- A station-table entry (R442). -/
def stationOk (e : List Byte) : Bool :=
  rsvZero e [(0, 0xFE), (1, 0xE0), (2, 0xE0), (3, 0xE0)] && zeroBytes e 6 15 && inRange e 4 0 16 10 65535

/-- A channel-table entry (R471). -/
def channelOk (e : List Byte) : Bool :=
  let c := fld e 0 0 16
  rsvZero e [(2, 0xFC), (3, 0xFF)] && signalOk c && (!fldB e 2 1 || decide (c ≤ 0x27))

/-- A trigger-table entry (R475). -/
def triggerOk (e : List Byte) : Bool :=
  let c := trSig e
  let k := trKind e
  rsvZero e [(0, 0x80), (1, 0xFE), (4, 0xFE), (5, 0xC0), (31, 0xFF)] && zeroBytes e 6 7 && zeroBytes e 36 47 &&
  decide (k ≤ 4) && (c == 0xFFFF || signalOk c) && (!fldB e 4 0 || decide (c ≤ 0x27)) &&
  (inRange e 5 0 6 0 46 || fld e 5 0 6 == 0x3F) && notNeg (fl32 e 16) && inRange e 28 0 16 15 65535 &&
  (k == 4 || c != 0xFFFF) && (!(k == 1 || k == 3) || lt32 (fl32 e 8) (fl32 e 12)) &&
  (k != 0 || decide (trT1 e ≤ trT2 e))

/-- A swap request (R251, R501). -/
def swapOk (e : List Byte) : Bool := inRange e 0 0 8 0 39 && inRange e 1 0 8 0 1 && zeroBytes e 4 7

/-- A GOOSE subscription (R526) or publication (R529). -/
def gooseEntryOk (publ : Bool) (e : List Byte) : Bool :=
  (if publ then rsvZero e [(8, 0xFC), (11, 0x10)] else rsvZero e [(8, 0xF8), (10, 0xFF), (11, 0xFF)]) &&
  rsvZero e [(9, 0xC0), (16, 0xC0)] && inRange e 9 0 6 1 32 && inRange e 16 0 6 1 47

/-- The reason for which entry `i` of table `t` is refused on its own, 0 if it passes. -/
def entryFault (s : State) (deb : Bool) (p : Proj) (t i : Nat) (e : List Byte) : Nat :=
  let r := fun (b : Bool) => if b then 0 else rsRange
  match t with
  | 0x01 => r (armOk e)
  | 0x02 => cellFault s deb p i e
  | 0x03 => r (rangingOk e)
  | 0x04 => r (svOk e)
  | 0x05 => r (chainOk s i e)
  | 0x06 => r (bankOk e && !bankBusy s i)
  | 0x07 => r (slotOk s e)
  | 0x08 => r (outMapOk e)
  | 0x09 => r (protOk e)
  | 0x0A => r (faultOk i e)
  | 0x0B => r (waitOk e)
  | 0x0C => r (routeOk e)
  | 0x0D => r (stationOk e)
  | 0x0E => r (channelOk e)
  | 0x0F => r (triggerOk e)
  | 0x10 => r (swapOk e)
  | 0x11 => r (gooseEntryOk false e)
  | 0x12 => r (gooseEntryOk true e)
  | _ => rsRange

/-! Relations between entries. Each check answers the reason, table and entry of the first that fails. -/

/-- The first of a list of answers. -/
def firstSome {α : Type} : List (Option α) → Option α
  | [] => none
  | some a :: _ => some a
  | none :: l => firstSome l

/-- The arms with their cells (R11, R12). -/
def armsFault (p : Proj) : Option (Nat × Nat × Nat) :=
  let mine := fun (a : Nat) => (p.cells.filter fun c => c.2.ent.serial != 0 && c.2.ent.arm.toNat == a).length
  let en := fun (a : Nat) => tabIn p.tabs 0x01 a
  firstSome [
    ((List.range 12).find? fun a => decide (2048 < mine a)).map fun a => (rsLimit, 0x01, a),
    (p.cells.find? fun c => c.2.ent.serial != 0 && !armOn (en c.2.ent.arm.toNat)).map fun c => (rsRange, 0x02, c.1),
    ((List.range 12).find? fun a => armOn (en a) && (armNeed (en a) == 0 || decide (mine a < armNeed (en a)))).map
      fun a => (rsRange, 0x01, a)]

/-- Every enabled arm has its reference (R283). -/
def outMapFault (p : Proj) : Option (Nat × Nat × Nat) :=
  ((List.range 12).find? fun a => armOn (tabIn p.tabs 0x01 a) && fld (tabIn p.tabs 0x08 0) (2 * a) 0 16 == 0xFFFF).map
    fun _ => (rsRange, 0x08, 0)

/-- A slot names an output that no slot writes (R264). -/
def slotNames (p : Proj) (e : List Byte) : Bool :=
  (slotOperands e).any fun code =>
    let c := code % 0x8000
    if 0x200 ≤ c ∧ c ≤ 0x2FF then
      let ty := slType (tabIn p.tabs 0x07 ((c - 0x200) / 4))
      ty == tyOff || (c % 4 != 0 && ty != tyXform)
    else false

/-- The chains of a REP slot do not fit (R275). -/
def repMisfit (p : Proj) (e : List Byte) : Bool :=
  let a := tabIn p.tabs 0x05 (slG0 e)
  let b := tabIn p.tabs 0x05 (slG1 e)
  !chGrid a || decide (chGridN a / 2 < slLead e) ||
  (slG1 e != 0x3F && (!chGrid b || chGridN a != chGridN b || chNomf a != chNomf b || fld a 7 0 6 != fld b 7 0 6))

/-- The slots among each other and with their chains (R264, R275). -/
def slotsFault (p : Proj) : Option (Nat × Nat × Nat) :=
  let en := fun (k : Nat) => tabIn p.tabs 0x07 k
  let reps := (List.range 64).filter fun k => slType (en k) == tyRep
  firstSome [
    (reps[16]?).map fun k => (rsLimit, 0x07, k),
    ((List.range 64).find? fun k => slotNames p (en k)).map fun k => (rsRange, 0x07, k),
    (reps.find? fun k => repMisfit p (en k)).map fun k => (rsRange, 0x07, k)]

/-- The chains an enabled comparator names run with their fast paths (R369). -/
def protChains (p : Proj) : Option (Nat × Nat × Nat) :=
  let e := tabIn p.tabs 0x09 0
  let used := ((List.range 12).filter fun a => fldB e (8 * a) 6).map (fun a => fld e (8 * a) 0 6) ++
    ([96, 97].filter fun b => fldB e b 6).map fun b => fld e b 0 6
  if used.all fun c => chEn (tabIn p.tabs 0x05 c) && chFast (tabIn p.tabs 0x05 c) then none else some (rsRange, 0x09, 0)

/-- Bytes 110 to 767 of the protection table stay while the converter could be READY or DEBLOCKED (R369). -/
def protHeld (busy : Bool) (before after : Proj) : Option (Nat × Nat × Nat) :=
  if busy && (tabIn before.tabs 0x09 0).drop 110 != (tabIn after.tabs 0x09 0).drop 110 then some (rsState, 0x09, 0) else none

/-- A swap to a bank that an accepted batch writes at a later mark: that batch would find its bank in use (R250, R499). -/
def swapConflict (s : State) (t : Tick) (rs : List BatchRec) : Option (Nat × Nat × Nat) :=
  let swaps := (rs.filter fun r => r.table == 0x10).flatMap entriesOf
  (swaps.find? fun x => s.batches.any fun b => !tickGe t b.mark && (recsOf b.body).1.any fun r =>
    r.table == 0x06 && (entriesOf r).any fun y => y.1 == 2 * fld x.2 0 0 8 + fld x.2 1 0 8).map fun x => (rsConflict, 0x10, x.1)

/-- Whether a force commands a state that only an FB cell has (R13). -/
def needsFb (c : HostCmd) : Bool := c.opc == .cellForce && (fld c.param 2 0 8 == 2 || fld c.param 2 0 8 == 4)

/-- An accepted force into a state that only an FB cell has would find an HB cell at its mark (R13, R307, R499). -/
def forceConflict (s : State) (b : Batch) : Option (Nat × Nat × Nat) :=
  (s.accepted.find? fun a => needsFb a.cmd && tickGe a.tick b.mark &&
    (let i := fld a.cmd.param 0 0 16
     (cellIn (projectedAt s [] a.tick).cells i).ent.ctype == 1 && (cellIn (projectedAt s [b] a.tick).cells i).ent.ctype != 1)).map
    fun a => (rsConflict, 0x02, fld a.cmd.param 0 0 16)

/-! The checks of a batch. -/

/-- The first entry, or record header, at fault on its own: reason, table, record, entry. -/
def recordFault (s : State) (deb : Bool) (p : Proj) (rs : List BatchRec) (ending : BatchEnd) : Option (Nat × Nat × Nat × Nat) :=
  let whole := if ending = .header then rs.dropLast else rs
  let inRec := fun (r : BatchRec) (k : Nat) =>
    firstSome ((entriesOf r).map fun x =>
      let f := entryFault s deb p r.table x.1 x.2
      if f = 0 then none else some (f, r.table, k, x.1))
  match firstSome (whole.zipIdx.map fun x => inRec x.1 x.2) with
  | some f => some f
  | none => match ending, rs.getLast? with
    | .header, some r => some (rsRange, r.table, rs.length - 1, r.first)
    | _, _ => none

/-- Index of the last record that writes entry `i` of table `t`, 0xFFFF if none does (R608). -/
def recordOfEntry (rs : List BatchRec) (t i : Nat) : Nat :=
  match (rs.zipIdx.filter fun x => x.1.table == t && decide (x.1.first ≤ i ∧ i < x.1.first + x.1.count)).getLast? with
  | some x => x.2
  | none => 0xFFFF

/-- Every check of a batch for commit mark `t` (R499): reason, table, record and entry of the first that fails. -/
def batchFault (s : State) (t : Tick) (body : List Byte) : Option (Nat × Nat × Nat × Nat) :=
  let (rs, ending) := recsOf body
  let before := projected s
  let states := statesAt s [] t
  let deb := states.contains .deblocked
  match recordFault s deb before rs ending with
  | some f => some f
  | none =>
    let after := layRecs rs before
    let has := fun (l : List Nat) => rs.any fun r => l.contains r.table
    let on := fun (b : Bool) (f : Option (Nat × Nat × Nat)) => if b then f else none
    (firstSome [
      on (has [0x01, 0x02]) (armsFault after), on (has [0x01, 0x08]) (outMapFault after),
      on (has [0x05, 0x07]) (slotsFault after), on (has [0x05, 0x09]) (protChains after),
      on (has [0x09]) (protHeld (deb || states.contains .ready) before after),
      on (has [0x10]) (swapConflict s t rs),
      on (has [0x02]) (forceConflict s { mark := t, order := s.accCount, body := body, ctx := 0, tag := 0 })]).map
      fun f => (f.1, f.2.1, recordOfEntry rs f.2.1 f.2.2, f.2.2)

/-- INFO of a refused batch (R608). -/
def batchInfo (f : Nat × Nat × Nat × Nat) : List Byte :=
  leBytes 1 f.2.1 ++ leBytes 1 f.1 ++ leBytes 2 f.2.2.1 ++ leBytes 4 f.2.2.2

/-- A command would break the state checks of an accepted batch at its mark (R20, R369, R499). -/
def breaksBatch (s : State) (c : HostCmd) (t : Tick) : Bool :=
  c.opc.cls == some 9 && s.batches.any fun b =>
    tickGe b.mark t && (
      let old := statesAt s [] b.mark
      let new := statesAt s [(c, t)] b.mark
      let earlier : State := { s with batches := s.batches.filter fun x => decide (x.order < b.order) }
      let before := projected earlier
      let rs := (recsOf b.body).1
      (!old.contains .deblocked && new.contains .deblocked && (rs.any fun r => r.table == 0x02 && (entriesOf r).any fun x =>
        cellFault s true before x.1 x.2 == rsState)) ||
      (!(old.contains .ready || old.contains .deblocked) && (new.contains .ready || new.contains .deblocked) &&
        (protHeld true before (layRecs rs before)).isSome))

end Sys2Proof.Machine
end

