-- ==== Sys2Proof/Machine/Admit.lean ====
section
/-! DEFINITION. Admission of host commands (R496 to R499, R608) and what each accepted command does at its effective tick
(R495). -/

namespace Sys2Proof.Machine

/-! The effective tick (R497, R498). -/

/-- The LEAD field of a command's class (R497); a NOP, which has no class, takes CONV (R514). -/
def leadOf (s : State) (o : Opcode) : Nat :=
  match o.cls with
  | some 0 => rd s HST_LEAD_BATCH
  | some 1 => rd s HST_LEAD_SNAP
  | some 3 => rd s HST_LEAD_PROG
  | some 4 => rd s HST_LEAD_FORCE
  | some 8 => rd s HST_LEAD_DUPLEX
  | some 9 => rd s HST_LEAD_CONV
  | none => rd s HST_LEAD_CONV
  | _ => 0

/-- Ticks to stage `n` bytes more than the accepted batches that have not reached their commit marks (R58, R497). -/
def stageTicks (s : State) (n : Nat) : Nat :=
  let total := n + (s.batches.map fun b => b.body.length).sum
  (total + tickLen s - 1) / tickLen s

/-- s of R497: the bytes of a batch, or the code that an on-line change copies (R440). -/
def stagingOf (s : State) (c : HostCmd) : Nat :=
  match c.opc with
  | .stageBatch => stageTicks s c.body.length
  | .progChange => (match s.bench.staged with
    | some img => stageTicks s img.codeLen
    | none => 0)
  | _ => 0

/-- The earliest feasible tick E (R384, R497). -/
def earliestTick (s : State) (c : HostCmd) : Tick :=
  let own := if c.opc.timed then max (leadOf s c.opc) (stagingOf s c + 1) else 0
  let link := if s.role == .active then (if s.closeDone == some s.tick then 3 else 2) else 0
  s.tick + BitVec.ofNat 32 (max own link)

/-- The first mark at or after a TAI time (R96). -/
def taiTick (s : State) (t : Nat) : Tick :=
  if t ≤ s.markAt then tickAt s (t + tickLen s - 1) else s.tick + BitVec.ofNat 32 ((t - s.markAt + tickLen s - 1) / tickLen s)

/-- The effective tick T (R498). -/
def effective (s : State) (c : HostCmd) : Tick :=
  let e := earliestTick s c
  match c.tai, c.nbTick with
  | some t, _ => taiTick s t
  | none, some n => if tickGe n e then n else e
  | none, none => e

/-! Changes of the tick numbering (R61, R64, R129, R130). -/

/-- Timecount of the first mark at WATCH for lasers lit at `t` (R129). -/
def watchMarkAt (t : Nat) : Nat := (t + 1000000 + 99999) / 100000 * 100000

/-- Ticks from the effective mark, at Timecount `t`, to the first rate-change set (R61). -/
def rateDelay (s : State) (t : Nat) : Nat :=
  if s.watch then 0
  else ((List.range 20).find? fun k => decide ((t + (k + 16) * tickLen s) % 100000 = 0)).getD 0

/-- The change of numbering a command brings if it takes effect at tick `t`: its kind and L. -/
def numberingOf (s : State) (c : HostCmd) (t : Tick) : Option (NumKind × Tick) :=
  let at_ := timeOfTick s t
  match c.opc with
  | .laneStart =>
    if (statesAt s [] t).contains .dormant then
      some (.laneStart, t + BitVec.ofNat 32 ((watchMarkAt at_ - at_) / tickLen s - 1))
    else none
  | .laneStop => if s.watch then some (.laneStop, t) else none
  | .rateChange =>
    if fldB c.param 0 0 = s.watch then none
    else some (if s.watch then .rateToFull else .rateToWatch, t + BitVec.ofNat 32 (rateDelay s at_ + 15))
  | _ => none

/-! Refusals by opcode (R499, R608). Each answers the reason, 0 if there is none. -/

/-- SNAP_READ (R507): entries or addresses that do not exist. -/
def snapFault (c : HostCmd) : Nat :=
  let n := fld c.param 2 0 16 + fld c.param 4 0 16
  match fld c.param 0 0 8 with
  | 2 => if 8192 < n then rsRange else 0
  | 4 => if entryCount (fld c.param 1 0 8) < n then rsRange else 0
  | _ => 0

/-- The program image in force at tick `t` (R435, R440): a start or a change accepted for a tick up to it takes the staged one. -/
def imageAt (s : State) (t : Tick) : Option ProgImage :=
  let turns := s.accepted.any fun a => (a.cmd.opc == .progStart || a.cmd.opc == .progChange) && tickGe t a.tick
  if turns then s.bench.staged.or s.bench.image else s.bench.image

/-- VAR_FORCE (R439): the variable, its type and the room in the force table. -/
def varFault (s : State) (c : HostCmd) (t : Tick) : Nat :=
  let id := fld c.param 0 0 32
  let var : Option VarDef := match imageAt s t with
    | none => none
    | some img => img.vars.find? fun (v : VarDef) => v.id.toNat == id
  let ids := (s.bench.forces.map fun f => f.id.toNat) ++
    (s.accepted.filter fun a => a.cmd.opc == .varForce).map fun a => fld a.cmd.param 0 0 32
  match var with
  | none => rsBlock
  | some v =>
    if varSize v.vtype = 1 ∧ 1 < fld c.param 4 0 32 then rsBlock
    else if 256 < ((id :: ids).eraseDups).length then rsLimit
    else 0

/-- CELL_FORCE (R13, R307): the cell's TYPE is the one it has at the mark of the force (DESIGN CHOICE, log entry 54). No rule gives an
occasion on which the device itself sends BYPASS_FIRE, and it never does (DESIGN CHOICE, log entry 55). -/
def forceFault (s : State) (c : HostCmd) (t : Tick) : Nat :=
  let a := fld c.param 0 0 16
  let st := fld c.param 2 0 8
  if 8191 < a ∨ 4 < st then rsRange
  else
    let fb := (cellIn (projectedAt s [] t).cells a).ent.ctype == 1
    let av := (cell s a).ent.avail
    if needsFb c && !fb then rsRange
    else if av = .empty ∨ av = .unranged ∨ av = .faulted ∨ av = .bypassed then rsState
    else 0

/-- The cells a cell-service command names: one, or those of a star. -/
def mbxCells (s : State) (c : HostCmd) : List Nat :=
  let a := fld c.param 0 0 16
  if a ≤ 8191 then [a] else laneAddrs s (a - 0xFF00)

/-- The lane a cell-service command names. -/
def mbxLane (c : HostCmd) : Nat :=
  let a := fld c.param 0 0 16
  if a ≤ 8191 then a / 128 else a - 0xFF00

/-- FW_ACTIVATE from tick `t` on would reach a cell that is AVAILABLE while the converter could be DEBLOCKED (R170, R499). -/
def activates (s : State) (t : Tick) (cells : List Nat) : Bool :=
  (statesAt s [] t).contains .deblocked && cells.any fun a => (cell s a).ent.avail == .available

/-- CELL_MBX (R170, R191, R496). -/
def mbxFault (s : State) (c : HostCmd) (t : Tick) : Nat :=
  let a := fld c.param 0 0 16
  let op := fld c.param 2 0 8
  let uni := decide (a ≤ 8191)
  let star := decide (0xFF00 ≤ a ∧ a < 0xFF40)
  let hold := ((padTo 64 c.body).getD 0 0).toNat
  if !(uni || star) then rsRange
  else if !(if uni then [0x08, 0x09, 0x0A, 0x0D, 0x0E, 0x0F, 0x10] else [0x09, 0x0E]).contains op then rsRange
  else if s.conv == .dormant || !laneEn s (mbxLane c) then rsState
  else if uni && ((cell s a).ent.avail == .empty || (cell s a).ent.avail == .unranged || (cell s a).ent.rvoid) then rsState
  else if op = 0x0E ∧ activates s t (mbxCells s c) then rsState
  else if op = 0x09 ∧ fld c.param 4 8 8 = 0 ∧ (hold < rd s TCK_CFG_MISS_LIMIT + 1 ∨ (s.role ≠ .solo ∧ hold < 4)) then rsRange
  else 0

/-- A converter command would let the converter be DEBLOCKED when an accepted FW_ACTIVATE for an AVAILABLE cell starts (R170, R499). -/
def breaksMbx (s : State) (c : HostCmd) (t : Tick) : Bool :=
  c.opc.cls == some 9 && s.accepted.any fun a =>
    a.cmd.opc == .cellMbx && !a.begun && fld a.cmd.param 2 0 8 == 0x0E && tickGe a.tick t &&
      !(statesAt s [] a.tick).contains .deblocked && (statesAt s [(c, t)] a.tick).contains .deblocked &&
      (mbxCells s a.cmd).any fun b => (cell s b).ent.avail == .available

/-- The lanes of a CELL_FW command. -/
def fwLanes (c : HostCmd) : List Nat := (List.range 64).filter fun l => fldB c.param (l / 8) (l % 8)

/-- An IMG_FINISH of the kind is in execution (R544). -/
def finishing (s : State) (kind : Nat) : Bool :=
  (s.accepted.any fun a => a.cmd.opc == .imgFinish && fld a.cmd.param 0 0 8 == kind) ||
  s.sec.writing.any fun w => w.kind == kind

/-- IMG_SLICE and IMG_FINISH (R543, R544): they serve device firmware, board descriptors and revocation images. -/
def imgFault (s : State) (c : HostCmd) : Nat :=
  let kind := fld c.param 0 0 8
  if kind ≠ kFirmware ∧ kind ≠ kBoard ∧ kind ≠ kRevocation then rsRange else if finishing s kind then rsState else 0

/-- Some executor is halted or the tick is frozen (R590). -/
def halted (s : State) : Bool := s.bench.halted != 0 || s.freeze

/-- A domain without which BLOCK_ACK is refused (R571); PD2 is not missed while the Watch profile keeps it off (R570). -/
def domainDown (s : State) : Bool :=
  [1, 2, 5, 6].any fun d => !domainOn s d && !(d == 2 && rdB s PWR_DOMSTAT_WATCHPROF && !rdB s LPE_CFG_PRECHG)

/-- The state of the program, the device or a unit that each opcode asks for. -/
def ownFault (s : State) (c : HostCmd) (t : Tick) : Nat :=
  let noBoard := !rdB s SEC_BOOTSTAT_BDVALID
  match c.opc with
  | .nop => 0
  | .stageBatch => 0
  | .snapRead => snapFault c
  | .ledgerFetch => 0
  | .progLoad => if s.accepted.any fun a => a.cmd.opc == .progChange then rsConflict else 0
  | .progStart =>
    if noBoard then rsState
    else match s.bench.staged.or s.bench.image with
      | none => rsBlock
      | some img =>
        if split s && img.tasks.any fun d => d.safety then rsBlock
        else if s.accepted.any fun a => a.cmd.opc == .progChange && tickGe a.tick t then rsConflict
        else 0
  | .progStop => if s.accepted.any fun a => a.cmd.opc == .progChange && tickGe a.tick t then rsConflict else 0
  | .progChange =>
    match s.bench.image, s.bench.staged with
    | some old, some new =>
      if s.bench.pstate != .running then rsState else if new.predId ≠ old.imageId then rsBlock
      else if s.accepted.any fun a => a.cmd.opc == .progChange then rsState else 0
    | _, _ => if s.bench.pstate != .running then rsState else 0
  | .cellForce => forceFault s c t
  | .cellUnforce => if 8191 < fld c.param 0 0 16 ∧ fld c.param 0 0 16 ≠ 0xFFFF then rsRange else 0
  | .varForce => varFault s c t
  | .varUnforce => 0
  | .cellMbx => mbxFault s c t
  | .cellFw => if activates s t ((fwLanes c).flatMap (laneAddrs s)) then rsState else 0
  | .imgSlice => imgFault s c
  | .imgFinish => imgFault s c
  | .attest => 0
  | .switchover => if s.role = .active ∧ s.dpx.pTakeover then 0 else rsState
  | .laneStart => if noBoard then rsState else 0
  | .laneStop => 0
  | .rateChange => 0
  | .deblock => if halted s then rsState else 0
  | .blockOrderly => 0
  | .block => 0
  | .blockAck => if domainDown s then rsState else 0

/-- R62 and R64: what a pending change of numbering refuses, and what a command that would change it meets. -/
def numberingFault (s : State) (c : HostCmd) (t : Tick) : Nat :=
  match s.numChange with
  | some n =>
    if c.opc = .laneStart ∨ c.opc = .laneStop ∨ c.opc = .rateChange ∨ c.opc = .deblock then rsConflict
    else if c.opc.timed && !tickGe n.lastOld t then rsState
    else 0
  | none =>
    match numberingOf s c t with
    | none => 0
    | some (_, l) => if s.accepted.any fun a => a.cmd.opc.timed && !tickGe l a.tick then rsConflict else 0

/-! Acceptance (R463, R498). -/

/-- A command that needs the DRAM (R572). -/
def needsDram (o : Opcode) : Bool :=
  o == .progLoad || o == .imgSlice || o == .imgFinish || o == .cellFw || o == .ledgerFetch

/-- A command takes its place among the accepted ones for tick `t`. -/
def enlist (c : HostCmd) (t : Tick) (s : State) : State :=
  let order := s.accCount
  let held := needsDram c.opc && rdB s PWR_DOMSTAT_MEM_SR
  let s := { s with
    accCount := order + 1
    accepted := s.accepted ++ [{ cmd := c, tick := t, order := order, begun := c.opc == .ledgerFetch && !held }] }
  let s := if c.opc = .stageBatch then { s with
      batches := s.batches ++ [{ mark := t, order := order, body := c.body, ctx := c.ctx, tag := c.tag }] } else s
  if held then request 10 { s with pwr := { s.pwr with dramHeld := s.pwr.dramHeld ++ [order] } } else s

/-- A command is accepted for tick `t`: it fixes L where it changes the numbering (R64), and is mirrored (R382, R513). -/
def accept (c : HostCmd) (t : Tick) (s : State) : State :=
  let order := s.accCount
  let s := match numberingOf s c t with
    | some (k, l) => { s with numChange := some { kind := k, lastOld := l, switchAt := none, ctx := order } }
    | none => s
  mirror (.cmd c t) (enlist c t s)

/-- A command is released and admitted, or completes at once (R376, R487, R494, R498, R553). -/
def admitCmd (c : HostCmd) (s : State) : State :=
  let own : Bool := match c.opc.cls with
    | some k => k == 1 || k == 2 || k == 6 || k == 7 || k == 8
    | none => false
  let denied := match c.opc.cls with
    | some k => !rdBit s (HST_PERM_CLASS c.ctx) k
    | none => false
  let e := earliestTick s c
  let t := effective s c
  let late := !tickGe t e || !tickGe c.dlv t
  if c.opc = .imgSlice ∧ 2 ^ 26 < fld c.param 4 0 32 + c.len then refuse c .badDesc [28] s
  else if denied then refuse c .denied [] s
  else if follows s && !own then refuse c .notActive [] s
  else if s.dev != .run && (c.opc.cls == some 9 || c.opc == .progStart) then refuseR rsState c s
  else if late || (c.opc == .progChange && s.bench.pstate == .running && s.bench.staged.isNone) then
    refuse c .refusedLate (leBytes 4 e.toNat) s
  else
    let f := ownFault s c t
    let n := numberingFault s c t
    if f ≠ 0 then refuseR f c s
    else if n ≠ 0 then refuseR n c s
    else if breaksBatch s c t || breaksMbx s c t then refuseR rsConflict c s
    else match (if c.opc = .stageBatch then batchFault s t c.body else none) with
      | some f => refuse c .refused (batchInfo f) s
      | none => accept c t s

/-- The oldest item of a submission flow is released (R461, R463). -/
def releaseItem (n : Nat) (s : State) : State :=
  match (hctx s n).sub with
  | [] => s
  | i :: r =>
    let s := flowReleased n (modHctx n (fun c => { c with sub := r }) s)
    let s := match i.cmd, i.bad with
      | some c, _ => admitCmd c s
      | none, some b => pushCompletion n (badCompletion s b) s
      | none, none => s
    hostRefresh n s

/-! What the accepted commands do. -/

/-- An accepted command completes OK. -/
def done (a : Accepted) (s : State) : State := finish a.order .ok [] none s

/-- An accepted command completes INHIBITED (R503). -/
def inhibit (a : Accepted) (info : List Byte) (s : State) : State := finish a.order .inhibited info none s

/-- A converter command finds a state that permits it no change (R602). -/
def noChange (a : Accepted) (s : State) : State := inhibit a [8, BitVec.ofNat 8 s.conv.code] s

/-- A change of the numbering that its command does not bring about is no longer pending. -/
def dropNumbering (a : Accepted) (s : State) : State :=
  match s.numChange with
  | some n => if n.ctx = a.order then { s with numChange := none } else s
  | none => s

/-- The converter enters a state by a command; the partner hears of it (R382). -/
def convTo (c : ConvState) (s : State) : State := mirrorEvent (.conv c) (setConv c s)

/-- The first deblock condition that fails, 0 if none does (R29). -/
def deblockFault (s : State) : Nat :=
  let short := (List.range 12).any fun a =>
    let e := armE s a
    armOn e && decide ((s.cells.filter fun c => c.2.ent.arm.toNat == a && c.2.ent.serial != 0 &&
      c.2.ent.avail == .available).length < armNeed e)
  if s.dev ≠ .run then 1 else if s.conv ≠ .ready then 2 else if blockLatched s then 3 else if short then 4
  else if !commands s then 5 else 0

/-- DEBLOCK at its tick (R29, R30). -/
def actDeblock (a : Accepted) (s : State) : State :=
  let f := deblockFault s
  if f ≠ 0 then inhibit a [BitVec.ofNat 8 f] s else done a (convTo .deblocked s)

/-- BLOCK_ORDERLY at its tick. -/
def actBlockOrderly (a : Accepted) (s : State) : State :=
  if s.conv = .deblocked then done a (convTo .ready s) else noChange a s

/-- The rate-change set that the newest mark carries: COUNT and the rate after the switch (R136, R137). -/
def rateSetHere (s : State) : Option (Nat × Bool) :=
  match s.rateCancel with
  | some (w, _) => some (0, w)
  | none => match rateSwitch s with
    | some (w, t) =>
      let left := (t - s.markAt) / tickLen s
      if s.numChange.any (·.started) && decide (1 ≤ left ∧ left ≤ 16) then some (left, w) else none
    | none => none

/-- The symbol of a mark at which its block ordered set stands: after the tick-mark set and any rate-change set (R134). -/
def blockPos (s : State) : Nat := if (rateSetHere s).isSome then 8 else 4

/-- The converter states from which BLOCK takes effect (R28). -/
def blockTakes (s : State) : Bool := s.conv == .watch || s.conv == .ready || s.conv == .deblocked

/-- The block set of a software BLOCK, at the position of its mark's repeated set (R346); a set that is being sent serves a request (R346). -/
def blockCmdSet (pos : Nat) (s : State) : State :=
  if s.lanesOn then emit (.ordered pos blockSyms) (setSent (s.markAt + symNs s.watch pos) s) else s

/-- BLOCK at its tick (R134, R137, R138): the repeated block set stands in the mark from which it has effect. -/
def actBlock (a : Accepted) (s : State) : State :=
  if blockTakes s then
    let pos := blockPos s
    done a (blockCmdSet pos (convTo .blocked (cancelRate s)))
  else noChange a s

/-- BLOCK_ACK at its tick (R28, R602). -/
def actBlockAck (a : Accepted) (s : State) : State :=
  if s.conv ≠ .blocked then noChange a s
  else if blockLatched s then inhibit a [9] s
  else done a (convTo (if s.watch then .watch else .ready) s)

/-- LANE_START at its tick (R64, R129, R554): the lasers light at Watch rate with idle fill. -/
def actLaneStart (a : Accepted) (s : State) : State :=
  if s.conv ≠ .dormant ∨ s.litAt.isSome then dropNumbering a (noChange a s)
  else
    let s := { s with
      lanesOn := true, litAt := some s.markAt, misses := 0, missDone := false, sentWin := none, closeDone := none
      numChange := s.numChange.map fun n => { n with switchAt := some (watchMarkAt s.markAt) } }
    let s := darkUnranged (lightLanes s)
    done a (interlock (wr TCK_STATUS_MISSRUN 0 s))

/-- LANE_STOP at its tick (R64, R130). -/
def actLaneStop (a : Accepted) (s : State) : State :=
  if s.conv = .dormant ∨ s.conv = .deblocked then dropNumbering a (noChange a s)
  else
    let s := darkLanes (convTo .dormant s)
    let s := { s with run := none, waitIn := [], ready := [], rateCancel := none, sentWin := none, misses := 0, missDone := false }
    let s := wr TCK_STATUS_MISSRUN 0 s
    let s := if s.watch then { watchExit s with
        watch := false, numChange := s.numChange.map fun n => { n with switchAt := some (s.markAt + tickNs s.clk.applied) } }
      else s
    done a (interlock s)

/-- A rate-change set goes out, `left` marks before the switch mark (R61, R136, R570): the Watch profile ends with the first one on
the way to full rate. -/
def sendRateSet (left : Nat) (s : State) : State :=
  match s.numChange with
  | none => s
  | some n =>
    let s := emit (.ordered 4 (rateSet left (n.kind == .rateToWatch))) { s with numChange := some { n with started := true } }
    if n.kind = .rateToFull ∧ !n.started then watchExit s else s

/-- RATE_CHANGE at its tick (R61, R136): the switch mark is fixed; from Watch the first set leaves at this mark. -/
def actRateChange (a : Accepted) (s : State) : State :=
  let toWatch := fldB a.cmd.param 0 0
  if (toWatch && s.conv == .ready) || (!toWatch && s.conv == .watch) then
    let k := rateDelay s s.markAt
    let t := s.markAt + (k + 16) * tickLen s
    let s := { s with numChange := s.numChange.map fun n => { n with switchAt := some t } }
    let s := mirrorEvent (.rateChange toWatch t) s
    done a (if k = 0 then sendRateSet 16 s else s)
  else dropNumbering a (noChange a s)

/-- A converter-control command of a device that follows, at its tick: a mirrored one changes the rate or the lanes with the partner
and sends the block set of a BLOCK (R348), while the partner's records bring the converter states (R385); one of its own changes nothing (R32) and is inhibited, a DEBLOCK by the first
condition that fails (R29, R30), any other as R602 says (DESIGN CHOICE, log entry 56). -/
def actFollowed (a : Accepted) (s : State) : State :=
  if !a.cmd.mirrored then dropNumbering a (if a.cmd.opc = .deblock then actDeblock a s else noChange a s)
  else match a.cmd.opc with
    | .laneStart => actLaneStart a s
    | .laneStop => actLaneStop a s
    | .rateChange => actRateChange a s
    | .block => done a (if blockTakes s then blockCmdSet (blockPos s) s else s)
    | _ => done a s

/-- A converter-control command at its tick: a reaction at the same mark (R31) or a mark that is not sent (R85) inhibits it. -/
def actConv (a : Accepted) (s : State) : State :=
  if rdB s CLK_STATUS_BYPASS || s.fcl.markReacted then dropNumbering a (inhibit a [6] s)
  else if follows s then actFollowed a s
  else match a.cmd.opc with
    | .laneStart => actLaneStart a s
    | .laneStop => actLaneStop a s
    | .rateChange => actRateChange a s
    | .deblock => actDeblock a s
    | .blockOrderly => actBlockOrderly a s
    | .block => actBlock a s
    | .blockAck => actBlockAck a s
    | _ => s

/-- CELL_FORCE at its commit mark (R307, R309). -/
def actCellForce (a : Accepted) (s : State) : State :=
  let addr := fld a.cmd.param 0 0 16
  let av := (cell s addr).ent.avail
  if av = .faulted ∨ av = .bypassed then done a s
  else done a (modCell addr (fun c => { c with dyn := { c.dyn with
    forcedTo := some (BitVec.ofNat 4 (fld a.cmd.param 2 0 8)) } }) s)

/-- CELL_UNFORCE at its commit mark (R310). -/
def actCellUnforce (a : Accepted) (s : State) : State :=
  let addr := fld a.cmd.param 0 0 16
  let free := fun (c : Cell) => { c with dyn := { c.dyn with forcedTo := none } }
  if addr = 0xFFFF then
    done a { s with cells := s.cells.foldl (fun l c => if c.2.dyn.forcedTo.isSome then kmod {} l c.1 free else l) s.cells }
  else done a (modCell addr free s)

/-- VAR_FORCE at its tick (R439). -/
def actVarForce (a : Accepted) (s : State) : State :=
  let id : Word := BitVec.ofNat 32 (fld a.cmd.param 0 0 32)
  let f : VarForce := { id := id, value := BitVec.ofNat 32 (fld a.cmd.param 4 0 32)
                        qual := BitVec.ofNat 3 (fld a.cmd.param 8 0 3), act := a.tick }
  done a (showForces { s with bench := { s.bench with forces := (s.bench.forces.filter fun x => x.id != id) ++ [f] } })

/-- VAR_UNFORCE at its tick (R439). -/
def actVarUnforce (a : Accepted) (s : State) : State :=
  let id : Word := BitVec.ofNat 32 (fld a.cmd.param 0 0 32)
  let keep := if id = 0xFFFFFFFF then [] else s.bench.forces.filter fun x => x.id != id
  done a (showForces { s with bench := { s.bench with forces := keep } })

/-- An on-line change that can no longer be made is abandoned (R440). -/
def dropChange (s : State) : State :=
  match s.bench.changeTo with
  | none => s
  | some (_, _, order) => finish order .changeTimeout [] none { s with bench := { s.bench with changeTo := none } }

/-- PROG_STOP at its tick (R435). -/
def actProgStop (a : Accepted) (s : State) : State := done a (progStop (dropChange s))

/-- PROG_START at the release instant of its tick (R435, R438). A program that runs is stopped first. -/
def actProgStart (a : Accepted) (s : State) : State :=
  let s := if s.bench.pstate = .stopped then s else progStop (dropChange s)
  match progStart (fldB a.cmd.param 0 0) a.tick s with
  | (s, some seg) => finish a.order .retainInvalid [BitVec.ofNat 8 seg] none s
  | (s, none) => done a s

/-- PROG_CHANGE at the release instant of its tick (R440). -/
def actProgChange (a : Accepted) (s : State) : State :=
  if s.bench.pstate = .running ∧ s.bench.staged.isSome then changeBegin a.order a.tick s
  else finish a.order .changeTimeout [] none s

/-- The result of a SNAP_READ as at the newest mark (R507). -/
def snapResult (c : HostCmd) (s : State) : List Byte :=
  let t := fld c.param 1 0 8
  let first := fld c.param 2 0 16
  let n := fld c.param 4 0 16
  match fld c.param 0 0 8 with
  | 1 => (List.range 40).flatMap fun k => recordBytes (chain s k).rec_
  | 2 => (List.range n).flatMap fun k => cellRecBytes (cell s (first + k)).live
  | 3 => (List.range 64).flatMap fun k =>
      let o := kget ({} : SlotOut) s.loopSeen k
      leBytes 4 o.y0.toNat ++ leBytes 4 o.y1.toNat ++ leBytes 4 o.y2.toNat ++ leBytes 4 o.y3.toNat ++ leBytes 4 o.qual.toNat
  | 4 => (List.range n).flatMap fun k => if t = 2 then cellEntryBytes (cell s (first + k)).ent else tab s t (first + k)
  | 5 => (List.range 12).flatMap fun a =>
      let x := armDyn s a
      (x.lvs ++ x.sel).flatMap fun w => leBytes 4 w.toNat
  | _ =>
    ((List.range 23).flatMap fun k =>
      let r := kget ({} : SarResult) s.meas.latest k
      leBytes 2 r.val.toNat ++ leBytes 2 r.qual.toNat) ++
    (let r := kget ({} : SarResult) s.meas.latest 0
     leBytes 8 r.stamp ++ leBytes 2 r.seq.toNat ++ leBytes 2 r.delay.toNat)

/-- SNAP_READ at the upstream-window close of its tick. -/
def actSnapRead (a : Accepted) (s : State) : State := finish a.order .ok [] (some (snapResult a.cmd s)) s

/-- SWITCHOVER at its switch mark (R392): a device that has not released its lasers keeps them. -/
def actSwitchover (a : Accepted) (s : State) : State :=
  if follows s then (if 2 ≤ tickDiff s.tick a.tick then done a s else s)
  else if s.role = .active ∧ s.dpx.released then s
  else inhibit a [7] s

/-- An untimed command has started. -/
def markBegun (a : Accepted) (s : State) : State :=
  { s with accepted := s.accepted.map fun b => if b.order = a.order then { b with begun := true } else b }

/-- CELL_MBX starts (R167, R496): its operation waits on its lane. -/
def actCellMbx (a : Accepted) (s : State) : State :=
  let addr := fld a.cmd.param 0 0 16
  let slot : Byte := if addr ≤ 8191 then BitVec.ofNat 8 (addr % 128) else 0xFF
  if follows s then done a s
  else if !s.lanesOn then finish a.order .noReply (leBytes 2 addr) none s
  else pushOp (mbxLane a.cmd) { op := BitVec.ofNat 8 (fld a.cmd.param 2 0 8), slot := slot
                                arg := BitVec.ofNat 32 (fld a.cmd.param 4 0 32), data := padTo 64 a.cmd.body
                                owner := .host a.order } (markBegun a s)

/-- What a command does at mark T of its effective tick; those that act elsewhere stay as they are. -/
def actAtMark (a : Accepted) (s : State) : State :=
  match a.cmd.opc with
  | .nop => done a s
  | .cellForce => actCellForce a s
  | .cellUnforce => actCellUnforce a s
  | .varForce => actVarForce a s
  | .varUnforce => actVarUnforce a s
  | .progStop => actProgStop a s
  | .switchover => actSwitchover a s
  | .cellMbx => if a.begun then s else actCellMbx a s
  | _ => if a.cmd.opc.cls = some 9 then actConv a s else s

/-- What a command does at the upstream-window close of its effective tick. -/
def actAtClose (a : Accepted) (s : State) : State :=
  match a.cmd.opc with
  | .snapRead => actSnapRead a s
  | .progStart => actProgStart a s
  | .progChange => if a.begun then s else actProgChange a (markBegun a s)
  | _ => s

/-- The accepted commands whose effective ticks have come, in order of acceptance. -/
def dueCmds (s : State) : List Accepted := s.accepted.filter fun a => tickGe s.tick a.tick

/-- A command is still among the accepted. -/
def isAccepted (s : State) (a : Accepted) : Bool := s.accepted.any fun b => b.order == a.order

/-- Every command that falls due at the newest mark acts, if its own row has not been commanded. -/
def runDue (s : State) : State :=
  (dueCmds s).foldl (fun s a => if isAccepted s a then actAtMark a s else s) s

/-- Every command that falls due at the upstream-window close acts. -/
def closeDue (s : State) : State :=
  (dueCmds s).foldl (fun s a => if isAccepted s a then actAtClose a s else s) s

/-! Untimed commands (R483, R496, R543, R545, R549). -/

/-- LEDGER_FETCH (R483): the bytes of the segment from the offset on, as far as it reaches. -/
def actLedgerFetch (a : Accepted) (s : State) : State :=
  let id := fld a.cmd.param 0 0 16
  match s.ledger.segs.find? fun g => g.segid.toNat == id with
  | none => finish a.order .noSegment [] none s
  | some g =>
    if !g.done then finish a.order .filling [] none s
    else
      let res := ((segBytes g).drop (fld a.cmd.param 4 0 32)).take a.cmd.len
      let s := if fldB a.cmd.param 2 0 && !a.cmd.mirrored then
          modLedger (fun x => { x with segs := x.segs.filter fun y => y.segid.toNat != id }) s else s
      flowReleased 39 (finish a.order .ok [] (if a.cmd.len = 0 then none else some res) s)

/-- An image has failed its verification: SIG_INVALID with the reason (R538). -/
def sigInvalid (a : Accepted) (r : Nat) (s : State) : State := finish a.order .sigInvalid [BitVec.ofNat 8 r] none s

/-- PROG_LOAD (R440, R545): the image is verified and staged; while a program runs its PRED_ID must be the running IMAGE_ID. -/
def actProgLoad (a : Accepted) (s : State) : State :=
  let image := a.cmd.body
  let (r, s) := verify kProgram image s
  if r ≠ 0 then sigInvalid a r s
  else match parseImage (split s) (infoOf image).hash (infoOf image).epoch (imgBody image) with
    | none => sigInvalid a 9 s
    | some img =>
      if programRuns s && s.bench.image.any fun old => old.imageId != img.predId then
        finish a.order .refused (refusedInfo rsBlock) none s
      else done a { s with bench := { s.bench with staged := some img } }

/-- IMG_SLICE (R543): bytes go to the staging area of their kind. -/
def actImgSlice (a : Accepted) (s : State) : State :=
  let kind := fld a.cmd.param 0 0 8
  done a { s with sec := { s.sec with stage := kmod [] s.sec.stage kind fun l => overlay l (fld a.cmd.param 4 0 32) a.cmd.body } }

/-- IMG_FINISH (R535, R543): the staged image is verified and the staging area cleared; a revocation is applied, any other image
goes to the copy with the lower write sequence. -/
def actImgFinish (a : Accepted) (s : State) : State :=
  let kind := fld a.cmd.param 0 0 8
  let image := kget [] s.sec.stage kind
  let (r, s) := verify kind image s
  let s := { s with sec := { s.sec with stage := kset [] s.sec.stage kind [] } }
  if r ≠ 0 then sigInvalid a r s
  else if kind = kRevocation then
    match revoke image s with
    | (true, s) => done a s
    | (false, s) => sigInvalid a 10 (verifyFailed kind 10 s)
  else
    let (b, _) := nextCopy s kind
    { s with sec := { s.sec with writing := s.sec.writing ++ [{ kind := kind, copyB := b, image := image, order := a.order }] } }

/-- ATTEST (R549). -/
def actAttest (a : Accepted) (s : State) : State :=
  finish a.order .ok [] (some (attestReport s (a.cmd.param.take 16))) s

/-- CELL_FW (R169, R496, R545): the image is verified, then its distribution starts. A device that follows distributes nothing. -/
def actCellFw (a : Accepted) (s : State) : State :=
  let image := a.cmd.body
  if follows s then done a s
  else
    let (r, s) := verify kCell image s
    if r ≠ 0 then sigInvalid a r s
    else
      let h := infoOf image
      { markBegun a s with fwJob := some {
          ctx := a.cmd.ctx, order := a.order, lanes := fwLanes a.cmd, image := imgBody image, version := h.version, sha := h.hash
          resLen := fld a.cmd.param 16 0 32 } }

/-- Work of the security engine that an accepted command still has to do. -/
def engineWork (s : State) (a : Accepted) : Bool :=
  match a.cmd.opc with
  | .progLoad => true
  | .imgFinish => !s.sec.writing.any fun w => w.order == a.order
  | .attest => true
  | .cellFw => !a.begun
  | _ => false

/-- The engine takes one operation at a time, in order of arrival (R546). -/
def engineTurn (s : State) (a : Accepted) : Bool :=
  engineWork s a && (s.accepted.find? (engineWork s)).any fun b => b.order == a.order

/-- An untimed command whose effective tick has come runs, unless it waits for the DRAM, the engine or an earlier distribution. -/
def actUntimed (a : Accepted) (s : State) : State :=
  let eng := fun (f : Accepted → State → State) => if engineTurn s a then flowReleased 37 (f a (engineOn s)) else s
  if s.pwr.dramHeld.contains a.order then s
  else match a.cmd.opc with
    | .ledgerFetch => memRest (actLedgerFetch a s)
    | .progLoad => memRest (eng actProgLoad)
    | .imgSlice => memRest (actImgSlice a s)
    | .imgFinish => memRest (eng actImgFinish)
    | .attest => eng actAttest
    | .cellFw => if s.fwJob.isSome then s else memRest (eng actCellFw)
    | .cellMbx => if a.begun then s else actCellMbx a s
    | _ => s

/-! The rows of the opcodes: an accepted command of that context, opcode and tag whose time has come acts; otherwise the command at
the head of the context's submission flow, if it is that one, is released and admitted. -/

/-- What an accepted command that is due does when its row comes. -/
def actRow (a : Accepted) (s : State) : State :=
  if !a.cmd.opc.timed then actUntimed a s
  else if a.cmd.opc = .snapRead ∨ a.cmd.opc = .progStart ∨ a.cmd.opc = .progChange then
    (if s.closeDone = some s.tick then actAtClose a s else s)
  else actAtMark a s

/-- The command at the head of a submission flow. -/
def headCmd (s : State) (n : Nat) : Option HostCmd :=
  match (hctx s n).sub with
  | i :: _ => i.cmd
  | [] => none

/-- One step of the command of context `n` with the tag. -/
def hostRow (o : Opcode) (n : Nat) (tag : BitVec 16) (s : State) : State :=
  let mine := fun (c : HostCmd) => c.opc == o && decide (c.ctx = n) && c.tag == tag
  match (dueCmds s).find? fun a => mine a.cmd && o != .stageBatch && !a.begun || mine a.cmd && o == .ledgerFetch with
  | some a => sync (actRow a s)
  | none => if (headCmd s n).any mine then sync (releaseItem n s) else s

/-- One step of flow 36 (R58, R460): the batch with the earliest commit mark that still has bytes to stage writes up to 2,000 of
them to its shadow copies. -/
def stagingStep (s : State) : State :=
  let open_ := s.batches.filter fun b => decide (b.staged < b.body.length)
  let first := open_.foldl (fun (m : Option Batch) b => match m with
    | some x => if tickGe b.mark x.mark then some x else some b
    | none => some b) none
  match first with
  | none => s
  | some x => sync (flowReleased 36 { s with batches := s.batches.map fun b =>
      if b.order = x.order then { b with staged := min b.body.length (b.staged + 2000) } else b })

/-- A flow releases its oldest item (R461). The items of flows 32 to 41 leave by the steps of their own units. -/
def flowItemRelease (f : Nat) (s : State) : State :=
  sync (if f < 16 then releaseItem f s else if f < 32 then completionWrite (f - 16) s
    else if 42 ≤ f then releaseFromFlow (f - 42) s else s)

/-! Domains (R569 to R572, R584). -/

/-- A domain that was asked to power up reports power-good: writes held for it apply; the filter chains of PD2 reset; the DRAM
commands that waited for PD10 may start. -/
def powerGood (d : Nat) (s : State) : State :=
  if !khas s.pwr.request d then s
  else
    let s := applyHeld d (unrequest d (wrBit PWR_DOMSTAT_ON d true s))
    if d = 2 then resetChains s
    else if d = 10 then memRest (modPwr (fun p => { p with dramHeld := [] }) (wrB PWR_DOMSTAT_MEM_SR false
      { s with accepted := s.accepted.map fun a => if a.cmd.opc == .ledgerFetch then { a with begun := true } else a }))
    else if d = 4 then sync s
    else s

/-! The commands. -/

/-- FLOW_ITEM_RELEASE (R461, R463). -/
def execFlowItemRelease (f : Fin 48) (s : State) : Host.Outcome State Fault Refusal := cmd (flowItemRelease f.val) s

/-- BATCH_STAGING_STEP (R58). -/
def execBatchStagingStep (s : State) : Host.Outcome State Fault Refusal := cmd stagingStep s

/-- DOMAIN_POWER_GOOD (R570, R571). -/
def execDomainPowerGood (d : Fin 13) (s : State) : Host.Outcome State Fault Refusal := cmd (powerGood d.val) s

/-- NOP (R495). -/
def execNop (n : CtxIx) (tag : BitVec 16) (s : State) : Host.Outcome State Fault Refusal :=
  cmd (hostRow .nop n.val tag) s

/-- STAGE_BATCH (R499). -/
def execStageBatch (n : CtxIx) (tag : BitVec 16) (s : State) : Host.Outcome State Fault Refusal :=
  cmd (hostRow .stageBatch n.val tag) s

/-- SNAP_READ (R507). -/
def execSnapRead (n : CtxIx) (tag : BitVec 16) (s : State) : Host.Outcome State Fault Refusal :=
  cmd (hostRow .snapRead n.val tag) s

/-- LEDGER_FETCH (R483). -/
def execLedgerFetch (n : CtxIx) (tag : BitVec 16) (s : State) : Host.Outcome State Fault Refusal :=
  cmd (hostRow .ledgerFetch n.val tag) s

/-- PROG_LOAD (R440). -/
def execProgLoad (n : CtxIx) (tag : BitVec 16) (s : State) : Host.Outcome State Fault Refusal :=
  cmd (hostRow .progLoad n.val tag) s

/-- PROG_START (R435). -/
def execProgStart (n : CtxIx) (tag : BitVec 16) (s : State) : Host.Outcome State Fault Refusal :=
  cmd (hostRow .progStart n.val tag) s

/-- PROG_STOP (R435). -/
def execProgStop (n : CtxIx) (tag : BitVec 16) (s : State) : Host.Outcome State Fault Refusal :=
  cmd (hostRow .progStop n.val tag) s

/-- PROG_CHANGE (R440). -/
def execProgChange (n : CtxIx) (tag : BitVec 16) (s : State) : Host.Outcome State Fault Refusal :=
  cmd (hostRow .progChange n.val tag) s

/-- CELL_FORCE (R307). -/
def execCellForce (n : CtxIx) (tag : BitVec 16) (s : State) : Host.Outcome State Fault Refusal :=
  cmd (hostRow .cellForce n.val tag) s

/-- CELL_UNFORCE (R310). -/
def execCellUnforce (n : CtxIx) (tag : BitVec 16) (s : State) : Host.Outcome State Fault Refusal :=
  cmd (hostRow .cellUnforce n.val tag) s

/-- VAR_FORCE (R439). -/
def execVarForce (n : CtxIx) (tag : BitVec 16) (s : State) : Host.Outcome State Fault Refusal :=
  cmd (hostRow .varForce n.val tag) s

/-- VAR_UNFORCE (R439). -/
def execVarUnforce (n : CtxIx) (tag : BitVec 16) (s : State) : Host.Outcome State Fault Refusal :=
  cmd (hostRow .varUnforce n.val tag) s

/-- CELL_MBX (R496). -/
def execCellMbx (n : CtxIx) (tag : BitVec 16) (s : State) : Host.Outcome State Fault Refusal :=
  cmd (hostRow .cellMbx n.val tag) s

/-- CELL_FW (R169, R496). -/
def execCellFw (n : CtxIx) (tag : BitVec 16) (s : State) : Host.Outcome State Fault Refusal :=
  cmd (hostRow .cellFw n.val tag) s

/-- IMG_SLICE (R543). -/
def execImgSlice (n : CtxIx) (tag : BitVec 16) (s : State) : Host.Outcome State Fault Refusal :=
  cmd (hostRow .imgSlice n.val tag) s

/-- IMG_FINISH (R543). -/
def execImgFinish (n : CtxIx) (tag : BitVec 16) (s : State) : Host.Outcome State Fault Refusal :=
  cmd (hostRow .imgFinish n.val tag) s

/-- ATTEST (R549). -/
def execAttest (n : CtxIx) (tag : BitVec 16) (s : State) : Host.Outcome State Fault Refusal :=
  cmd (hostRow .attest n.val tag) s

/-- SWITCHOVER (R392). -/
def execSwitchover (n : CtxIx) (tag : BitVec 16) (s : State) : Host.Outcome State Fault Refusal :=
  cmd (hostRow .switchover n.val tag) s

/-- LANE_START (R129). -/
def execLaneStart (n : CtxIx) (tag : BitVec 16) (s : State) : Host.Outcome State Fault Refusal :=
  cmd (hostRow .laneStart n.val tag) s

/-- LANE_STOP (R130). -/
def execLaneStop (n : CtxIx) (tag : BitVec 16) (s : State) : Host.Outcome State Fault Refusal :=
  cmd (hostRow .laneStop n.val tag) s

/-- RATE_CHANGE (R61). -/
def execRateChange (n : CtxIx) (tag : BitVec 16) (s : State) : Host.Outcome State Fault Refusal :=
  cmd (hostRow .rateChange n.val tag) s

/-- DEBLOCK (R29, R30). -/
def execDeblock (n : CtxIx) (tag : BitVec 16) (s : State) : Host.Outcome State Fault Refusal :=
  cmd (hostRow .deblock n.val tag) s

/-- BLOCK_ORDERLY (R28). -/
def execBlockOrderly (n : CtxIx) (tag : BitVec 16) (s : State) : Host.Outcome State Fault Refusal :=
  cmd (hostRow .blockOrderly n.val tag) s

/-- BLOCK (R346). -/
def execBlock (n : CtxIx) (tag : BitVec 16) (s : State) : Host.Outcome State Fault Refusal :=
  cmd (hostRow .block n.val tag) s

/-- BLOCK_ACK (R28, R602). -/
def execBlockAck (n : CtxIx) (tag : BitVec 16) (s : State) : Host.Outcome State Fault Refusal :=
  cmd (hostRow .blockAck n.val tag) s

end Sys2Proof.Machine
end

