-- ==== Sys2Proof/Machine/Window.lean ====
section
/-! DEFINITION. The close of the upstream window (R21, R26, R34, R321, R343, R345, R385, R388): the per-cell records of the
tick, its samples, its releases and the start of its compute phase; the inputs of a device in shadow; resolving changes of AVAIL
(R24); and the instants of a tick at which due commands act first. -/

namespace Sys2Proof.Machine

/-! Changes of AVAIL (R24, R25, R309). -/

/-- Rank of a change among those due at one mark, the highest first (R24). -/
def Avail.rank : Avail → Nat
  | .bypassed => 0
  | .faulted => 1
  | .outOfService => 2
  | .missing => 3
  | .refreshing => 4
  | .unranged => 5
  | .available => 6
  | .empty => 7

/-- A cell takes an AVAIL: a force ends at FAULTED or BYPASSED (R309), a refresh with REFRESHING. -/
def setAvail (t : Avail) (c : Cell) : Cell :=
  { ent := { c.ent with avail := t }
    live := { c.live with availCopy := t }
    dyn := { c.dyn with
      forcedTo := if t = .faulted ∨ t = .bypassed then none else c.dyn.forcedTo
      refEnd := if t = .refreshing then c.dyn.refEnd else none } }

/-- A cell takes the AVAIL that stands for it; one that is to be ranged afresh is UNRANGED until it has been (R17). -/
def takeAvail (t : Avail) (c : Cell) : Cell := setAvail (if c.ent.rvoid && needsRange t then .unranged else t) c

/-- The change that stands for an address (R24): the newest change of SERIAL, else the highest. -/
def standing (l : List AvailChange) : Option Avail :=
  match (l.filter (·.bySerial)).getLast? with
  | some x => some x.target
  | none => (l.foldl (fun (m : Option Avail) x => match m with
    | none => some x.target
    | some y => if x.target.rank < y.rank then some x.target else some y) none)

/-- The changes due at a mark take effect (R24). Windows that wait for their TICKIN keep them. -/
def resolveAvails (s : State) : State :=
  let l := s.avails
  let s := modDpx (fun d => { d with closed := d.closed.map fun h => { h with due := some (h.due.getD l) } }) s
  ((l.map fun x => x.addr.toNat).eraseDups).foldl (fun s a =>
    match standing (l.filter fun x => x.addr.toNat == a) with
    | some t => modCell a (takeAvail t) s
    | none => s) { s with avails := [] }

/-! Roles (R374, R394, R395). -/

/-- The role changes; the host hears of it (R505). -/
def setRole (r : Role) (s : State) : State :=
  let s := wr DPX_STATUS_ROLE r.code { s with role := r }
  post 4 0x0501 [BitVec.ofNat 8 r.code, BitVec.ofNat 8 (rd s DPX_STATUS_REASON)] s

/-- Digests, currency and what a shadow execution keeps are forgotten. -/
def dropShadow (s : State) : State :=
  let s := modDpx (fun d => { d with
    shadow := false, compared := 0, currentRun := 0, digests := [], partner := [], inTime := [], checks := []
    launched := [], mirror := none, shedFrom := [], mbxFrom := [], events := [], blkWatch := 0 }) s
  wrB DPX_STATUS_CURRENT false (wrB DPX_STATUS_TAKEOVER_OK false (wrB DPX_STATUS_DIGEST_OK false
    { s with run := none, waitIn := [], ready := [] }))

/-- Resynchronisation starts at step 1 (R395). -/
def startResync (s : State) : State := wr DPX_STATUS_RSTEP 1 (count DPX_RESYNC_CNT_COUNT s)

/-- A device enters RESYNC with a reason (R374, R397): it runs no phase, and commands no cell. -/
def enterResync (reason : Nat) (s : State) : State :=
  let s := fwStop (forUpto 64 s fun s l => dropOps l s)
  let s := dropShadow (wr DPX_STATUS_REASON reason s)
  let s := setRole .resync (modDpx (fun d => { d with released := false, grantLowAt := none, yieldTold := false }) s)
  let s := if rdB s DPX_STATUS_DVL_UP then startResync s else wr DPX_STATUS_RSTEP 0 s
  interlock s

/-! The reports of a tick (R21, R26, R152, R321). -/

/-- A slot has brought a valid report (R152). -/
def SlotRx.valid : SlotRx → Bool
  | .report _ => true
  | .echo _ => true
  | _ => false

/-- A report payload as what its slot brought. -/
def rxOf (p : List Byte) : SlotRx := if fld p 0 13 3 = 1 then .echo p else .report p

/-- The per-cell record of tick `n` (R26), with the runs of valid and missing reports (R21); answers whether VCAP is predicted.
The SEQ a report echoes is stored; no rule gives its comparison an effect (DESIGN CHOICE, log entry 55). -/
def closeCell (inp : PhaseIn) (n : Tick) (quiet : Bool) (rx : SlotRx) (c : Cell) : Cell × Bool :=
  let w : Option WinEntry := c.dyn.wins.find? fun w => w.window == n
  let live := { c.live with
    state := (w.map WinEntry.endSt).getD c.dyn.endState, ntrans := BitVec.ofNat 2 ((w.map WinEntry.ntrans).getD 0)
    forced := (w.map WinEntry.forced).getD c.forced, availCopy := c.ent.avail }
  let carried := inp.conv != .dormant && c.ranged
  let vcap := if carried then BitVec.ofNat 16 (predictVcap (kget 0 inp.iPrev c.ent.arm.toNat) n c) else live.vcap
  let came := fun (l : CellRec) => { c with
    live := { l with rptOk := true, missCnt := 0 }
    dyn := { c.dyn with validRun := c.dyn.validRun + 1, missRun := 0 } }
  match rx with
  | .report p =>
    let c := came { live with
      vcap := BitVec.ofNat 16 (fld p 2 0 16), tmod := p.getD 6 0, pred := false, fault := p.getD 10 0, seq := p.getD 11 0
      dtMeas := p.getD 16 0 }
    ({ c with dyn := { c.dyn with shortOn := shortClass (p.getD 10 0) } }, false)
  | .echo _ => (came { live with vcap := vcap, pred := carried || live.pred, fault := 0 }, carried)
  | _ =>
    let miss := carried && !quiet && rx != .collision
    ({ c with
      live := { live with
        rptOk := false, vcap := vcap, pred := carried || live.pred, fault := 0
        missCnt := if miss then BitVec.ofNat 3 (min 7 (live.missCnt.toNat + 1)) else live.missCnt }
      dyn := { c.dyn with
        missRun := if miss then c.dyn.missRun + 1 else c.dyn.missRun, validRun := if quiet then c.dyn.validRun else 0 } }, carried)

/-- Every record of tick `n` is written; the conditions on reports are evaluated (R345). -/
def closeCells (inp : PhaseIn) (n : Tick) (rxs : KeyList SlotRx) (s : State) : State :=
  let quiet := decide (0 < s.suppress)
  let onset := rxs.filterMap fun x => match x.2 with
    | .report p =>
      let c := cell s x.1
      if shortClass (p.getD 10 0) && !c.dyn.shortOn then some c.ent.arm.toNat else none
    | _ => none
  let vs := rxs.filterMap fun x => match x.2 with
    | .report p => some (x.1, fld p 2 0 16)
    | _ => none
  let s := s.cells.foldl (fun s (x : Nat × Cell) =>
    if x.2.ent.avail == .empty then s
    else
      let (c, pred) := closeCell inp n quiet (kget .nothing rxs x.1) x.2
      let s := modCell x.1 (fun _ => c) s
      if pred then count SEL_PRED_CNT_COUNT s else s) s
  reportProtect vs onset s

/-! The mirrored inputs (R282, R385). -/

/-- TICKIN of the newest mark. The active device knows no report its partner lacks, and sends no patch (DESIGN CHOICE, log entry 25). -/
def tickInOf (rxs : KeyList SlotRx) (s : State) : TickIn :=
  { mark := s.tick
    valid := (rxs.filter fun x => x.2.valid).map (·.1)
    recs := forUpto 40 [] fun l c => kset {} l c (chain s c).rec_
    grids := forUpto 40 [] fun l c => match (chain s c).gridAt with
      | some g => kput l c g
      | none => l
    sar := s.meas.latest
    sv := forUpto 16 [] fun l i => kset [] l i (svSt s i).deliv
    mbx := forUpto 64 [] fun l m => kset {} l m (kget ({} : RefMbx) s.mbx m).latched
    stations := forUpto 32 [] fun l i =>
      let x := stn s i
      kset { inputs := [], quals := [], arrived := 0, lost := false } l i
        { inputs := x.inputs, quals := x.quals, arrived := x.arrived, lost := x.lost }
    goose := forUpto 32 [] fun l i => kset [] l i (gsub s i).points
    shedding := s.shedding }

/-- Magnitude of a rational. -/
def ratAbs (x : Rat) : Rat := if x < 0 then -x else x

/-- A chain's own record compared with the mirrored one (R385). -/
def compareChain (t : TickIn) (s : State) (c : Nat) : State :=
  let own := (chain s c).rec_
  let its := kget {} t.recs c
  let tol := rat32 (rdWord s DPX_MTOL_V.addr) * ratAbs (bkScale (chBank s c (chain s c).bankB)) * 65536
  let far := decide (own.qual = qFine) && decide (its.qual = qFine) && decide (tol < ratAbs (rat32 own.value - rat32 its.value))
  let n := if far then kget 0 s.dpx.measRun c + 1 else 0
  let s := modDpx (fun d => { d with measRun := kset 0 d.measRun c n }) s
  if n = 16 then post 1 0x0202 [BitVec.ofNat 8 c] (wrBit (DPX_MEASDIFF_D (c / 32)) (c % 32) true s) else s

/-- A station as the active device holds it; its coming and going is heard as on the active device. -/
def mirrorStation (t : TickIn) (s : State) (i : Nat) : State :=
  let x := kget { inputs := [], quals := [], arrived := 0, lost := false } t.stations i
  let was := (stn s i).lost
  let s := modStn i (fun y => { y with inputs := x.inputs, quals := x.quals, arrived := x.arrived, lost := x.lost }) s
  if was = x.lost then s else occur (0x400 + i) (wrBit BEN_RIO_LOST i x.lost s)

/-- The inputs of a mark are those of the active device. -/
def takeMirror (t : TickIn) (s : State) : State :=
  let s := forUpto 40 s (compareChain t)
  let diff := (List.range 64).any fun m => (kget ({} : RefMbx) s.mbx m).latched != kget {} t.mbx m
  let s := if diff then count LPE_MBXDIFF_CNT_COUNT s else s
  let s := mirrorValues t s
  forUpto 32 s (mirrorStation t)

/-- What each slot brought, by the active device's bitmap and its patches (R385): own copies where both are valid, patches where only
the active device's is, none where its bitmap marks it invalid. -/
def mirrorRx (t : TickIn) (own : KeyList SlotRx) : KeyList SlotRx × Nat :=
  t.valid.foldl (fun (l, n) a =>
    let x := kget SlotRx.nothing own a
    if x.valid then (l, n)
    else match t.patches.find? fun p => p.1 == a with
      | some p => (kset .nothing l a (rxOf p.2), n + 1)
      | none => (l, n)) (own.foldl (fun l x => if x.2.valid && !t.valid.contains x.1 then kset .nothing l x.1 .invalid else l) own, 0)

/-- Some report the active device holds valid is known to neither side's slot. -/
def reportLacks (t : TickIn) (rxs : KeyList SlotRx) : Bool :=
  decide (64 < t.patches.length) || t.valid.any fun a => !(kget SlotRx.nothing rxs a).valid

/-- The arm currents of the mark follow the mirrored records (R321). `late`: a later mark has been made since. -/
def mirrorArms (inp : PhaseIn) (late : Bool) (s : State) : State :=
  let cx : LoopCx := { inp := { inp with chains := s.chains, mbx := s.mbx, sv := s.meas.sv }
                       slots := s.loopSeen.map fun k => (k.1, { out := k.2, fine := k.2 }), ts := 0 }
  forUpto 12 s fun s a =>
    let (i, bad) := armCurrent cx (tabIn inp.tabs 0x01 a)
    let v := if bad then 0 else i
    modArm a (fun x => if late then { x with iPrev := v } else { x with iMark := v }) s

/-! Windows a takeover counted as unsent (R388). -/

/-- A report of tick `n` shows the state a cell held through window n − 1: where that window and those after it were counted as unsent,
the record and the sequencer's level follow the report. -/
def followReports (n : Tick) (rxs : KeyList SlotRx) (s : State) : State :=
  if !s.dpx.unsentWins.contains (n - 1) then s
  else
    let s := rxs.foldl (fun s x => match x.2 with
      | .report p =>
        let c := cell s x.1
        let st : BitVec 4 := BitVec.ofNat 4 (fld p 8 0 4)
        let held := c.dyn.wins.all fun w => tickDiff w.window n < 0 || w.ntrans == 0
        if c.ent.avail == .available && held && st != c.dyn.endState && decide (st.toNat ≤ 4) then
          modCell x.1 (fun c => { c with live := { c.live with state := st }, dyn := { c.dyn with endState := st } }) s
        else s
      | _ => s) s
    forUpto 12 s fun s a =>
      modArm a (fun x => if x.on then { x with level := levelBefore (ofArm s.cells a) } else x) s

/-! The close (R34, R41, R423, R470, R471, R507). -/

/-- A compute phase starts in tick `n` of `inp`: not in DORMANT, with dark lanes, in a freeze (R67), for windows at or beyond a switch mark
(R63), or on a device that resynchronises and does not yet execute in shadow (R395). -/
def phaseWanted (inp : PhaseIn) (s : State) : Bool :=
  s.lanesOn && inp.conv != .dormant && !s.frozen && !beyondSwitch s 2 && (!follows s || shadows s)

/-- The close of the window of `inp`, with the reports of its slots: records, samples, releases and the phase. -/
def closeWith (inp : PhaseIn) (rxs : KeyList SlotRx) (s : State) : State :=
  let n := inp.window - 2
  let s := followReports n rxs (closeCells inp n rxs s)
  let s := mirror (.tickin (tickInOf rxs s)) s
  let s := cyclicReleases (closeDue (ledgerClose s))
  let cells := s.cells.foldl (fun l x => kmod {} l x.1 fun c => { c with live := x.2.live }) inp.cells
  let inp := { inp with cells := cells, chains := s.chains, mbx := s.mbx, sv := s.meas.sv }
  if phaseWanted inp s then phaseDue inp s else s

/-- What the slots of a closed window brought. -/
def rxsOf (inp : PhaseIn) : KeyList SlotRx := inp.cells.foldl (fun l c => kset .nothing l c.1 c.2.dyn.rx) []

/-- The cells as a window closed late takes them: what each has beside its table entry as it stands, with the entry of that tick. A cell
put at an address since then is not there yet. -/
def pastCells (past now : KeyList Cell) : KeyList Cell :=
  past.map fun x =>
    let c := cellIn now x.1
    (x.1, if c.ent.serial ≠ x.2.ent.serial then x.2
      else { c with ent := x.2.ent, live := { c.live with availCopy := x.2.ent.avail } })

/-- The cells after a window closed late: those of the present, with what its reports have left with those still in place. -/
def presentCells (past now : KeyList Cell) : KeyList Cell :=
  now.map fun x =>
    let c := cellIn past x.1
    (x.1, if c.ent.serial ≠ x.2.ent.serial then x.2
      else { ent := { x.2.ent with lastFault := c.ent.lastFault }, live := { c.live with availCopy := x.2.ent.avail }, dyn := c.dyn })

/-- Changes of AVAIL that a window closed late brings are judged with those that took effect at the mark they fell due at (R24, R25). -/
def lateAvails (due new : List AvailChange) (cells : KeyList Cell) : KeyList Cell :=
  ((new.map fun x => x.addr.toNat).eraseDups).foldl (fun l a =>
    let mine := due.filter fun x => x.addr.toNat == a
    if mine.any (·.bySerial) then l
    else match standing (mine ++ new.filter fun x => x.addr.toNat == a) with
      | some t => kmod {} l a (takeAvail t)
      | none => l) cells

/-- A held window closes with the active device's inputs, or with the own ones where its TICKIN has not come (R385, R388). Where a later mark has
been made, the window closes on what stood at its own close, and what the mark latched stands again afterwards. -/
def closeHeld (h : HeldClose) (tin : Option TickIn) (s : State) : State :=
  let inp := h.inp
  let n := inp.window - 2
  let old := s
  let s := if h.due.isSome then { s with
      tick := n, markAt := inp.markAt, chains := inp.chains, mbx := inp.mbx, meas := { s.meas with sv := inp.sv }
      avails := [], cells := pastCells inp.cells s.cells } else s
  let (rxs, s) := match tin with
    | none => (rxsOf inp, s)
    | some t =>
      let (rxs, used) := mirrorRx t (rxsOf inp)
      let s := countN DPX_PATCH_CNT_COUNT used (mirrorArms inp h.due.isSome (takeMirror t { s with shedding := t.shedding }))
      (rxs, s)
  let s := rxs.foldl (fun s x => match x.2 with
    | .report p => reportEffects x.1 p s
    | _ => s) s
  let s := closeWith inp rxs s
  let s := match h.due with
    | none => s
    | some due =>
      let now := { s with
        tick := old.tick, markAt := old.markAt, chains := old.chains, mbx := old.mbx, meas := { s.meas with sv := old.meas.sv }
        avails := old.avails, cells := lateAvails due s.avails (presentCells s.cells old.cells) }
      modDpx (fun d => { d with closed := d.closed.map fun g =>
        { g with inp := { g.inp with cells := lateAvails due s.avails g.inp.cells } } }) now
  if shadows s && tin.any fun t => reportLacks t rxs then enterResync 4 s else s

/-- Held windows whose TICKIN is here, or has been passed by a later one, close. `n` bounds their number. -/
def closeMirrored : Nat → State → State
  | 0, s => s
  | n + 1, s =>
    match s.dpx.closed, s.dpx.mirror with
    | h :: r, some t =>
      let w := h.inp.window - 2
      if t.mark = w then closeMirrored n (closeHeld h (some t) (modDpx (fun d => { d with closed := r }) s))
      else if tickGe t.mark w then closeMirrored n (closeHeld h none (modDpx (fun d => { d with closed := r }) s))
      else s
    | _, _ => s

/-- Windows still held give up waiting for their TICKIN (R388). -/
def closeOwn (s : State) : State :=
  s.dpx.closed.foldl (fun s h => closeHeld h none s) (modDpx (fun d => { d with closed := [] }) s)

/-- The device makes marks: in SETUP and RUN, while the core runs on the PLL output (R85). -/
def marksRun (s : State) : Bool := (s.dev == .setup || s.dev == .run) && !rdB s CLK_STATUS_BYPASS

/-- The upstream window of the newest mark closes (R34, R41). A running phase whose window has begun is late beyond doubt (R49). Ticks
between LANE_START and the first Watch mark close like others (DESIGN CHOICE, log entry 60). -/
def upstreamClose (s : State) : State :=
  if !marksRun s || s.closeDone == some s.tick then s
  else
    let s := stationsDue { s with time := max s.time (s.markAt + symNs s.watch (winClose (liveMode s) s.watch)) }
    let s := if waitsTickin s then s else closeOwn s
    let s := if s.run.any fun p => tickGe s.tick p.window then loseRunning s else s
    let s := if s.lanesOn then (lanesEn s).foldl (fun s l => laneClose l s) s else s
    let inp := inputsNow s (s.tick + 2)
    let s := { s with
      closeDone := some s.tick
      cells := s.cells.foldl (fun (l : KeyList Cell) (c : Nat × Cell) =>
        if c.2.dyn.rx = .nothing then l else kmod {} l c.1 fun x => { x with dyn := { x.dyn with rx := .nothing } }) s.cells }
    if waitsTickin s then
      closeMirrored (s.dpx.closed.length + 1) (modDpx (fun d => { d with closed := d.closed ++ [{ inp := inp }] }) s)
    else closeWith inp (rxsOf inp) s

/-! The commands. -/

/-- UPSTREAM_WINDOW_CLOSE (R34). -/
def execUpstreamWindowClose (s : State) : Host.Outcome State Fault Refusal := cmd (fun s => upstreamClose (runDue s)) s

/-- LAUNCH_POINT (R43). -/
def execLaunchPoint (s : State) : Host.Outcome State Fault Refusal := cmd (fun s => launchPoint (runDue s)) s

end Sys2Proof.Machine
end

