-- ==== Sys2Proof/Machine/Duplex.lean ====
section
/-! DEFINITION. Duplex operation (chapter 13): heartbeats, GRANT and the roles, taking over, the Dovetail link and its records,
digests and currency, resynchronisation, and the planned switch-over. -/

namespace Sys2Proof.Machine

/-! The referee lane (R377 to R379). -/

/-- YIELD (R377, R394): an ACTIVE device whose HANDOVER reaction holds. -/
def yields (s : State) : Bool := s.role == .active && rdB s FCL_STATUS_YIELD

/-- The 16 bytes of a heartbeat (R377). -/
def heartbeatBytes (kind : Nat) (s : State) : List Byte :=
  let flags := bitNat (healthy s) + 2 * bitNat (rdB s DPX_STATUS_TAKEOVER_OK) + 4 * bitNat (yields s) + 8 * bitNat s.dpx.released +
    16 * bitNat (rdB s DPX_STATUS_DVL_UP) + 32 * bitNat (rdB s DPX_STATUS_DIGEST_OK) + 64 * bitNat s.dpx.grant +
    128 * bitNat s.pin.grantEcho
  let b := [BitVec.ofNat 8 (1 + 16 * kind), BitVec.ofNat 8 (rd s DPX_CFG_UNIT)] ++ leBytes 4 s.tick.toNat ++
    [BitVec.ofNat 8 s.role.code, BitVec.ofNat 8 s.conv.code, BitVec.ofNat 8 flags, BitVec.ofNat 8 (rd s FCL_STATUS_MAXSEV)] ++
    leBytes 2 (tickLen s / 1000) ++ [0, 0]
  b ++ crcBytes crc16 b

/-- Sends a heartbeat, from the entry into RUN on (R377); it stops with the referee lane (R84). -/
def heartbeat (kind : Nat) (s : State) : State :=
  if s.dev == .run && lineOn s 68 then emit (.heartbeat (heartbeatBytes kind s)) s else s

/-- The extra heartbeat of YIELD; that of RELEASE leaves with the release. -/
def extraHeartbeat (s : State) : State :=
  if yields s && !s.dpx.yieldTold then heartbeat 2 (modDpx (fun d => { d with yieldTold := true }) s) else s

/-- Since when the GRANT ball and the unit's bit in the last status frame differ (R379). -/
def disUpdate (s : State) : State :=
  modDpx (fun d => match d.statusGrant with
    | some g => if g = d.grant then { d with disSince := none, disDone := false } else { d with disSince := some (d.disSince.getD s.time) }
    | none => d) s

/-- The bytes of a referee status frame (R379). -/
def refereeBytes (b : List Byte) (s : State) : State :=
  if b.length ≠ 8 ∨ b.getD 0 0 ≠ 0x31 ∨ crc crc16 (b.take 6) ≠ fld b 6 0 16 then s
  else disUpdate (modDpx (fun d => { d with
    statusAt := s.time, laneLate := false, statusGrant := some (fldB b 1 (rd s DPX_CFG_UNIT)) }) s)

/-- Bits on the referee lane: a status frame between K27.7 and K29.7 (R379). -/
def refereeStatus (bits : List Bool) (s : State) : State :=
  let (rx, s) := pointRx 68 bits s
  match framed rx with
  | some b => refereeBytes b s
  | none => s

/-- No valid status frame has arrived for 2 ms on a device of a pair in RUN (R379). -/
def refereeTimeout (s : State) : State :=
  if s.dev != .run || s.role == .solo || s.dpx.laneLate then s
  else fault .referee 1 0 (modDpx (fun d => { d with laneLate := true }) { s with time := max s.time (s.dpx.statusAt + 2000000) })

/-- GRANT and its bit in the last status frame have differed for more than 10 µs (R379). -/
def refereeDisagree (s : State) : State :=
  match s.dpx.disSince with
  | none => s
  | some t =>
    if s.dev != .run || s.dpx.disDone then s
    else fault .referee 2 0 (modDpx (fun d => { d with disDone := true }) { s with time := max s.time (t + 10001) })

/-! Taking over (R375, R388 to R390). -/

/-- The accepted switch-over whose tick s − 1 has come (R392). -/
def switchoverDue (s : State) : Option Accepted :=
  s.accepted.find? fun a => a.cmd.opc == .switchover && tickGe (s.tick + 1) a.tick

/-- The device's own delays start from the values of its cell table (R603). -/
def delaysFromTable (s : State) : State :=
  let m := liveMode s
  { s with cells := s.cells.foldl (fun (l : KeyList Cell) (c : Nat × Cell) =>
      if c.2.ent.avail == .empty then l
      else kmod {} l c.1 fun x => { x with dyn := { x.dyn with
        dsExact := 512 * (x.ent.dsDelay.toNat : Int)
        usExact := 8192 * (((winOpen m false + 78 * (c.1 % 128) : Nat) : Int) - (x.ent.txOffset.toNat : Int)) } }) s.cells }

/-- Launch point of a window's phase. -/
def launchAt (s : State) (i : PhaseIn) : Nat :=
  i.markAt + i.tlen + symNs i.watch (if i.watch then 10400 else rd s TCK_LAUNCH_LAUNCH)

/-- One of the newest phases at an unplanned takeover (R388): a window for which no LAUNCHED confirmation is held, or that is not sent under
R388, counts as one without a frame; a later one that can still be sent is computed anew from its checkpoint. -/
def takeOverWindow (s : State) (c : Checkpoint) : State :=
  if s.dpx.launched.contains c.window then s
  else if launchAt s c.inp < s.dpx.notBefore ∨ s.sentWin = some c.window then
    let again := !s.dpx.unsentWins.isEmpty
    let c := if again then { c with cells := s.cells, arms := s.arms } else c
    let s := count TCK_OVR_CNT_COUNT (takeBack c s)
    let s := modDpx (fun d => { d with unsentWins := c.window :: d.unsentWins }) s
    { s with
      sentWin := some (match s.sentWin with
        | some w => if tickGe w c.window then w else c.window
        | none => c.window)
      ready := s.ready.filter fun p => p.window != c.window
      run := if s.run.any fun p => p.window == c.window then none else s.run }
  else if s.dpx.unsentWins.isEmpty then s
  else
    let first := !s.waitIn.any fun i => i.window == c.window - 1
    let (before, after) := s.waitIn.partition fun i => tickGe c.window i.window
    { s with
    slots := if first then c.slots else s.slots
    osc := if first then c.osc else s.osc
    waitIn := before ++ c.inp :: after
    ready := s.ready.filter fun p => p.window != c.window
    run := if s.run.any fun p => p.window == c.window then none else s.run }

/-- The windows of an unplanned takeover, the oldest first. -/
def takeBackUnsent (s : State) : State :=
  s.dpx.checks.reverse.foldl takeOverWindow (modDpx (fun d => { d with unsentWins := [], unsent := true }) s)

/-- The reports of the running tick that a device has kept for its TICKIN are judged as it takes over (R388). -/
def judgeKept (s : State) : State :=
  s.cells.foldl (fun s x => match x.2.dyn.rx with
    | .report p => reportEffects x.1 p s
    | _ => s) s

/-- The device becomes ACTIVE (R375, R388, R390, R392). -/
def takeover (s : State) : State :=
  let plan := switchoverDue s
  let unqualified := (s.role == .resync || !rdB s DPX_STATUS_TAKEOVER_OK) && s.conv != .dormant
  let s := modDpx (fun d => { d with
    notBefore := s.time + (if plan.isSome then 2000 else 5000), blkWatch := if s.conv == .deblocked then 2 else 0
    toResync := false, cutAt := none, shadow := false }) s
  let s := if plan.isSome then s else takeBackUnsent s
  let s := judgeKept (closeOwn s)
  let s := wr DPX_STATUS_RSTEP 0 (wrB DPX_STATUS_CURRENT false (setRole .active (count DPX_SWITCH_CNT_COUNT s)))
  let s := match plan with
    | some a => finish a.order .ok [] none s
    | none => s
  let s := phaseNext (refreshTakeover (delaysFromTable s))
  interlock (if unqualified then raiseSrc { src := .dpxLink, reason := 3, forced := 4 } s else s)

/-! GRANT (R374, R375, R394). -/

/-- The level of GRANT changes. -/
def setGrant (g : Bool) (s : State) : State := disUpdate (interlock (modDpx (fun d => { d with grant := g }) s))

/-- GRANT stays low for 1 µs without a planned release (R374, R394). -/
def grantLost (s : State) : State :=
  match s.dpx.grantLowAt with
  | none => s
  | some t =>
    if s.role != .active || s.dpx.grant || s.dpx.released then s
    else fault .referee 4 0 (enterResync 5 { s with time := max s.time (t + 1000) })

/-- GRANT rises at a device in RUN: a follower becomes ACTIVE; after a low pulse shorter than 1 µs nothing else changes (R375). -/
def grantActs (s : State) : State :=
  let low := s.dpx.grantLowAt
  let s := match low with
    | some t => if t + 1000 ≤ s.time then grantLost s else s
    | none => s
  let s := modDpx (fun d => { d with grantLowAt := none }) (setGrant true s)
  if follows s then takeover s
  else match low with
    | some t => if s.time < t + 1000 then fault .referee 3 0 s else s
    | none => s

/-- GRANT rises. Before RUN only its level is taken. -/
def grantRise (s : State) : State :=
  if s.dpx.grant then s
  else if s.dev == .run then grantActs s
  else modDpx (fun d => { d with grantLowAt := none }) (setGrant true s)

/-- GRANT falls (R392, R394): the lasers go dark at once; after a release the device resynchronises and the switch-over is done. -/
def grantFall (s : State) : State :=
  if !s.dpx.grant then s
  else
    let s := setGrant false (modDpx (fun d => { d with grantLowAt := some s.time }) s)
    if s.role == .active && s.dpx.released then
      let s := match s.accepted.find? fun a => a.cmd.opc == .switchover with
        | some a => finish a.order .ok [] none s
        | none => s
      enterResync 8 s
    else s

/-- A low pulse of GRANT shorter than 1 µs: its rise, or, while GRANT is high, the whole of it (R375). -/
def grantGlitch (s : State) : State :=
  if s.dev != .run || follows s then s
  else if s.dpx.grant then fault .referee 3 0 s
  else match s.dpx.grantLowAt with
    | some t => if s.time < t + 1000 then grantRise s else s
    | none => s

/-! The planned switch-over (R392). -/

/-- The frame for the switch mark's window has left, or none will be sent for it. -/
def windowDecided (s : State) (w : Tick) : Bool := !s.lanesOn || s.conv == .dormant || s.sentWin == some w

/-- In tick s − 1 the active device releases its lasers. -/
def plannedRelease (s : State) : State :=
  match s.accepted.find? fun a => a.cmd.opc == .switchover && a.tick == s.tick + 1 with
  | none => s
  | some a =>
    if s.role != .active || s.dpx.released || !windowDecided s a.tick then s
    else heartbeat 2 (interlock (modDpx (fun d => { d with released := true }) s))

/-- A switch-over whose mark has come with the frame for it decided, and that has not been released yet, is released at that mark. -/
def lateRelease (s : State) : State :=
  if s.role == .active && !s.dpx.released && s.accepted.any fun a => a.cmd.opc == .switchover && a.tick == s.tick then
    heartbeat 2 (interlock (modDpx (fun d => { d with released := true }) s))
  else s

/-- The partner's TAKEOVER_OK has fallen before tick s − 1: the switch-over is inhibited (R392). -/
def switchoverCheck (s : State) : State :=
  if s.role != .active || s.dpx.pTakeover || s.dpx.released then s
  else match s.accepted.find? fun a => a.cmd.opc == .switchover && !tickGe (s.tick + 1) a.tick with
    | some a => finish a.order .inhibited [7] none s
    | none => s

/-! Digests (R386, R387, R395, R396). -/

/-- Resynchronisation starts again at step 1 (R395). -/
def restartResync (s : State) : State := startResync (modDpx (fun d => { d with cutAt := none }) (dropShadow s))

/-- Resynchronisation completes (R395 step 5). -/
def becomeStandby (s : State) : State :=
  refreshTakeover (wr DPX_STATUS_RSTEP 0 (setRole .standby (modDpx (fun d => { d with shadow := false, compared := 0, currentRun := 0 }) s)))

/-- Two digests of one window are compared. With differing compatibility codes they are counted as exchanged only (R396). -/
def compareDigest (own its : BitVec 64) (s : State) : State :=
  if rdB s DPX_STATUS_SKEW then s
  else if own = its then
    let s := refreshTakeover (wrB DPX_STATUS_DIGEST_OK true s)
    if s.role == .resync && s.dpx.shadow then
      let s := modDpx (fun d => { d with compared := d.compared + 1 }) s
      if rd s DPX_CFG_CONFIRM ≤ s.dpx.compared then becomeStandby s else s
    else s
  else
    let s := fault .dpxDigest 0 0 (count DPX_DIGEST_CNT_COUNT (wrB DPX_STATUS_DIGEST_OK false s))
    let s := modDpx (fun d => { d with copied := false }) s
    refreshTakeover (if s.role == .standby then enterResync 1 s
      else if s.role == .resync && s.dpx.shadow then restartResync s else s)

/-- Every window whose two digests are present is compared, the oldest first. -/
def compareDue (s : State) : State :=
  let pairs := s.dpx.partner.reverse.filterMap fun p =>
    (s.dpx.digests.find? fun d => d.window == p.window).map fun d => (p.window, d.crc, p.crc)
  pairs.foldl (fun s x =>
    if s.dpx.partner.any fun p => p.window == x.1 then
      compareDigest x.2.1 x.2.2 (modDpx (fun d => { d with partner := d.partner.filter fun p => p.window != x.1 }) s)
    else s) s

/-! The Dovetail link (R380 to R383, R394). -/

/-- RXLOCK of the Dovetail lanes. -/
def doveLocks (m : BitVec 4) (s : State) : State := forUpto 4 s fun s k => wrB (LNK_STATUS_RXLOCK (64 + k)) (m.getLsbD k) s

/-- The link comes up (R383): all four lanes show RXLOCK, and a RESYNC device starts to resynchronise. -/
def linkUp (s : State) : State :=
  if rdB s DPX_STATUS_DVL_UP then s
  else
    let s := doveLocks 0xF s
    let s := modDpx (fun d => { d with
      rxNext := none, rxHeld := [], nakked := [], txKept := [], copied := false, told := false, toResync := false }) s
    let s := wrB DPX_STATUS_DVL_UP true s
    refreshTakeover (if s.role == .resync then startResync s else s)

/-- The link is lost (R383, R394, R395). Which of the four receivers are still locked is a free value: a tick number that differs loses the
link too (DESIGN CHOICE, log entry 7). -/
def linkLost (s : State) : State :=
  if !rdB s DPX_STATUS_DVL_UP then s
  else
    let (free, s) := drawFree s
    let s := doveLocks (BitVec.ofNat 4 free) s
    let s := wrB DPX_STATUS_DVL_UP false (modDpx (fun d => { d with
      copied := false, copyDue := false, pTakeover := false, toResync := s.role == .standby }) s)
    let s := if s.role == .resync then wr DPX_STATUS_RSTEP 0 (modDpx (fun d => { d with cutAt := none }) (dropShadow s)) else s
    fault .dpxLink 1 0 (refreshTakeover (switchoverCheck s))

/-- What an EVENT record says takes effect (R32, R95, R348, R363, R385). -/
def applyEvent (e : DoveEvent) (s : State) : State :=
  match e with
  | .reaction _ =>
    if s.conv == .dormant then s else cancelRate { s with fcl := { s.fcl with blockReq := true, superseded := true } }
  | .conv c =>
    let s := convTo c (if c == .blocked || c == .tripped then cancelRate s else s)
    if !s.fcl.superseded then s
    else
      let s := { s with fcl := { s.fcl with superseded := false } }
      if c == .blocked || c == .tripped then clearForces s else s
  | .safetyReset =>
    let s := if s.conv == .tripped then convTo (if s.watch then .watch else .ready) s else s
    if resetReason s = 0 then resetOutputs s else s
  | .rateChange toWatch t =>
    (match s.numChange with
    | some n => { s with numChange := some { n with switchAt := some t } }
    | none => { s with numChange := some {
        kind := if toWatch then .rateToWatch else .rateToFull, lastOld := tickAt s (t - 1), switchAt := some t, ctx := 0 } })
  | .frac f => { s with clk := { s.clk with frac := f }, servo := { s.servo with value := 256 * fracInt f, recent := [] } }

/-- FRAC moves at marks alone (R70). -/
def DoveEvent.atMark : DoveEvent → Bool
  | .frac _ => true
  | _ => false

/-- The events of marks that have come take effect, in the order they came. -/
def eventsDue (s : State) : State :=
  let (now, later) := s.dpx.events.partition fun e => tickGe s.tick e.1
  now.foldl (fun s e => applyEvent e.2 s) (modDpx (fun d => { d with events := later }) s)

/-- A piece of a state copy is placed (R395). -/
def placePiece (s : State) (p : SlicePiece) : State :=
  match p with
  | .table t i e => { s with tabs := setTabIn s.tabs t i e }
  | .cell a c => modCell a (fun _ => c) s
  | .slot k x => modSlot k (fun _ => x) s
  | .osc d x => setOsc d x s
  | .arm a x => modArm a (fun _ => x) s
  | .idata d => { s with bench := { s.bench with idata := d } }
  | .retain seg c => { s with bench := { s.bench with mramA := kput s.bench.mramA seg c } }
  | .edges l => { s with bench := { s.bench with edges := l } }
  | .forces l => showForces { s with bench := { s.bench with forces := l } }
  | .taskNext t n => modTask t (fun x => { x with next := n }) s
  | .ctx c x => modCtx c (fun _ => x) s
  | .lane l v => modLane l (fun x => { x with planVer := v }) s
  | .conv c watch on =>
    let s := setTime s.time (setConv c { s with watch := watch, lanesOn := on, clk := { s.clk with applied := if on then laneMode s else s.clk.applied } })
    if on then lightLanes s else s
  | .prog p =>
    let s := { s with bench := { s.bench with image := s.bench.image.or s.bench.staged } }
    (match s.bench.image with
    | some img => showTasks (showImage (setPstate p (if p == .stopped then s else (taskList img).foldl (fun s x => setupTask x s) s)))
    | none => s)

/-- The state a RESYNC device is sent (R395 step 2). -/
def sliceOf (s : State) : List SlicePiece :=
  [.conv s.conv s.watch s.lanesOn] ++
  ((List.range 0x13).filter (· != 2)).flatMap (fun t => (List.range (entryCount t)).map fun i => .table t i (tab s t i)) ++
  (List.range 8192).map (fun a => .cell a (cell s a)) ++ (List.range 64).map (fun k => .slot k (slot s k)) ++
  (List.range 16).map (fun d => .osc d (oscSt s d)) ++ (List.range 12).map (fun a => .arm a (armDyn s a)) ++
  (List.range 64).map (fun l => .lane l (lane s l).planVer) ++ [.prog s.bench.pstate, .idata s.bench.idata, .forces s.bench.forces, .edges s.bench.edges] ++
  s.bench.mramA.map (fun x => .retain x.1 x.2) ++ s.bench.tasks.map (fun x => .taskNext x.1 x.2.next) ++
  s.fmn.ctxs.map (fun x => .ctx x.1 x.2)

/-- The copy leaves at a mark, with the cut record naming it (R395 steps 2 to 4). -/
def copyState (s : State) : State :=
  if !s.dpx.copyDue then s
  else
    let s := flowReleased 38 (modDpx (fun d => { d with copyDue := false, copied := true }) s)
    sendDove (.slice (sliceOf s) (some s.tick)) s

/-- A SLICE record arrives at a RESYNC device: after the cut record it executes in shadow from the phase that starts in the tick named. -/
def takeSlice (pieces : List SlicePiece) (cut : Option Tick) (s : State) : State :=
  if s.role != .resync || rd s DPX_STATUS_RSTEP == 0 then s
  else
    let s := pieces.foldl placePiece (wr DPX_STATUS_RSTEP 3 s)
    match cut with
    | none => s
    | some c => if tickGe s.tick c then wr DPX_STATUS_RSTEP 5 (modDpx (fun d => { d with shadow := true, cutAt := none }) s)
      else wr DPX_STATUS_RSTEP 4 (modDpx (fun d => { d with cutAt := some c }) s)

/-- Hash of the bench image a device holds (R395). -/
def imageHash (s : State) : List Byte := ((s.bench.image.or s.bench.staged).map ProgImage.hash).getD []

/-- STATUS of a device (R382). -/
def statusRec (s : State) : DoveRec :=
  .status s.role (rdB s DPX_STATUS_CURRENT) (rdB s DPX_STATUS_TAKEOVER_OK) (imageHash s) (BitVec.ofNat 16 (rd s DPX_COMPAT_OWN))

/-- The codes of the two devices keep them from pairing (R396). -/
def skewed (s : State) : Bool := rdB s DPX_STATUS_SKEW && !rdB s DPX_CFG_SKEW_OK

/-- An ACTIVE device hears a RESYNC partner (R395 steps 1 and 2). -/
def serveResync (images : List Byte) (s : State) : State :=
  if images != imageHash s then
    (if s.dpx.told then s else post 4 0x0502 [] (modDpx (fun d => { d with told := true }) s))
  else if skewed s || s.dpx.copied then s
  else modDpx (fun d => { d with copyDue := true }) s

/-- A RESYNC device hears the active one (R395 step 1). -/
def askResync (images : List Byte) (s : State) : State :=
  if rd s DPX_STATUS_RSTEP ≠ 1 then s
  else if images != imageHash s then wr DPX_STATUS_REASON 7 s
  else if skewed s then wr DPX_STATUS_REASON 6 s
  else wr DPX_STATUS_RSTEP 2 s

/-- A STATUS record arrives (R382, R392, R395, R396). -/
def takeStatus (role : Role) (takeoverOk : Bool) (images : List Byte) (compat : BitVec 16) (s : State) : State :=
  let s := wr DPX_STATUS_PROLE role.code (wr DPX_COMPAT_PARTNER compat.toNat s)
  let s := wrB DPX_STATUS_SKEW (rd s DPX_COMPAT_OWN != compat.toNat) (modDpx (fun d => { d with
    pTakeover := takeoverOk
    copied := d.copied && role != .standby, told := d.told && role == .resync }) s)
  let s := refreshTakeover (switchoverCheck s)
  if s.role == .active && role == .resync then serveResync images s
  else if s.role == .resync && role == .active then askResync images s
  else s

/-- What a complete record does (R382, R385). -/
def takeRecord (r : DoveRec) (s : State) : State :=
  match r with
  | .tickin t =>
    if waitsTickin s then closeMirrored s.dpx.closed.length (modDpx (fun d => { d with mirror := some t }) s) else s
  | .cmd c t =>
    if !follows s then s
    else
      let order := s.accCount
      let s := match numberingOf s c t with
        | some (k, l) => { s with numChange := some { kind := k, lastOld := l, switchAt := none, ctx := order } }
        | none => s
      enlist { c with mirrored := true } t s
  | .phase w set_ shed =>
    if shadows s then phaseNext (modDpx (fun d => { d with shedFrom := ((w, set_, shed) :: d.shedFrom).take 4 }) s) else s
  | .event m e =>
    if !follows s then s
    else if tickGe s.tick m && !e.atMark then applyEvent e s
    else modDpx (fun d => { d with events := d.events ++ [(m, e)] }) s
  | .mbx w boxes => if shadows s then phaseNext (modDpx (fun d => { d with mbxFrom := ((w, boxes) :: d.mbxFrom).take 4 }) s) else s
  | .digest w c before =>
    compareDue (modDpx (fun d => { d with
      partner := ({ window := w, crc := c } :: d.partner).take 4
      launched := if before then ((w - 1) :: d.launched).take 4 else d.launched }) s)
  | .nak l => l.foldl (fun s n => match s.dpx.txKept.find? fun x => x.1 == n with
      | some x => sendSegments [x] (count DPX_NAK_CNT_COUNT s)
      | none => s) s
  | .slice pieces cut => takeSlice pieces cut s
  | .status role _ ok images compat => takeStatus role ok images compat s

/-- A segment in its turn: the last one of a record completes it (R380). -/
def deliver (f : DoveFrame) (s : State) : State :=
  let s := modDpx (fun d => { d with rxNext := some (f.sseq + 1), nakked := d.nakked.filter fun n => n.1 != f.sseq }) s
  if f.last then takeRecord f.holds s else s

/-- Segments held beyond a gap follow once it is closed. `n` bounds their number. -/
def drainHeld : Nat → State → State
  | 0, s => s
  | n + 1, s =>
    match s.dpx.rxHeld.find? fun f => some f.sseq == s.dpx.rxNext with
    | none => s
    | some f => drainHeld n (deliver f (modDpx (fun d => { d with rxHeld := d.rxHeld.filter fun g => g.sseq != f.sseq }) s))

/-- Missing SSEQ values are asked for once (R381). -/
def askAgain (l : List (BitVec 16)) (s : State) : State :=
  let new := l.filter fun n => !s.dpx.nakked.any fun x => x.1 == n
  if new.isEmpty then s
  else sendDove (.nak new) (countN DPX_NAK_CNT_COUNT new.length (modDpx (fun d => { d with nakked := d.nakked ++ new.map fun n => (n, s.tick) }) s))

/-- A segment is lost a second time (R381): its repetition is bad, or has not come within the 2 ticks for which the sender keeps it. -/
def segmentLost (n : BitVec 16) (s : State) : State :=
  let s := modDpx (fun d => { d with
    rxNext := if d.rxNext = some n then some (n + 1) else d.rxNext, nakked := d.nakked.filter fun x => x.1 != n }) s
  let s := drainHeld s.dpx.rxHeld.length s
  fault .dpxLink 2 0 (if s.role == .standby then enterResync 3 s else s)

/-- A Dovetail segment arrives (R380, R381). -/
def segmentIn (f : DoveFrame) (s : State) : State :=
  if !rdB s DPX_STATUS_DVL_UP then s
  else
    let next := s.dpx.rxNext.getD f.sseq
    let s := modDpx (fun d => { d with rxNext := some next }) s
    let gap := (f.sseq - next).toInt
    if gap < 0 ∨ s.dpx.rxHeld.any (fun g => g.sseq == f.sseq) then s
    else
      let before := ((List.range gap.toNat).map fun k => next + BitVec.ofNat 16 k).filter fun n =>
        !s.dpx.rxHeld.any fun g => g.sseq == n
      if !f.crcOk then
        (if s.dpx.nakked.any fun x => x.1 == f.sseq then segmentLost f.sseq s else askAgain (before ++ [f.sseq]) s)
      else if gap = 0 then
        let s := deliver f s
        drainHeld s.dpx.rxHeld.length s
      else askAgain before (modDpx (fun d => { d with rxHeld := d.rxHeld ++ [f] }) s)

/-- A segment by its bytes (R380); bytes too few for a header are none. `r`: what its record says. -/
def segmentOf (b : List Byte) (r : DoveRec) : Option DoveFrame :=
  if b.length < 12 then none
  else
    let n := fld b 2 0 16
    some { rtype := b.getD 0 0, last := fldB b 1 0, sseq := BitVec.ofNat 16 (fld b 4 0 16), rtick := BitVec.ofNat 16 (fld b 6 0 16)
           crcOk := decide (n ≤ 1024 ∧ b.length = n + 12 ∧ crc crc32c (b.take (8 + n)) = fld b (8 + n) 0 32), holds := r }

/-- Bits on a Dovetail lane: a segment between K27.7 and K29.7 (R380). -/
def dovetailBits (x : SegmentBits) (s : State) : State :=
  let (rx, s) := pointRx (64 + x.lane) x.bits s
  match (framed rx).bind fun b => segmentOf b x.holds with
  | some f => segmentIn f s
  | none => s

/-! The duplex part of a mark. -/

/-- Currency at mark n (R387, R395): whether the own digest of window n was complete before it. While no phase runs no window has a
digest, and the currency stands (DESIGN CHOICE, log entry 37). -/
def currency (s : State) : State :=
  if !shadows s || !s.lanesOn || s.conv == .dormant || s.frozen then s
  else
    let hit := s.dpx.digests.any fun d => d.window == s.tick
    let s := if hit then s else count DPX_LATE_CNT_COUNT s
    let l := ((s.tick, hit) :: s.dpx.inTime).take 3
    let cur := l.length == 3 && l.all (·.2)
    let s := wrB DPX_STATUS_CURRENT cur (modDpx (fun d => { d with inTime := l, currentRun := if cur then d.currentRun + 1 else 0 }) s)
    if s.role == .resync && rdB s DPX_STATUS_SKEW && rdB s DPX_CFG_SKEW_OK && decide (16 ≤ s.dpx.currentRun) then becomeStandby s
    else refreshTakeover s

/-- A mark as the duplex functions see it: the link's loss sends a STANDBY device to RESYNC (R394), the cut's tick begins shadow execution,
segments asked for in vain are lost (R381), events of the mark apply, and STATUS leaves (R382). -/
def duplexMark (s : State) : State :=
  let s := if s.dpx.toResync && s.role == .standby then enterResync 2 (modDpx (fun d => { d with toResync := false }) s) else s
  let s := match s.dpx.cutAt with
    | some c => if tickGe s.tick c then wr DPX_STATUS_RSTEP 5 (modDpx (fun d => { d with shadow := true, cutAt := none }) s) else s
    | none => s
  let s := (s.dpx.nakked.filter fun x => decide (2 < tickDiff s.tick x.2)).foldl (fun s x => segmentLost x.1 s) s
  let s := eventsDue (currency s)
  let s := modDpx (fun d => { d with blkWatch := d.blkWatch - 1 }) s
  if s.role == .solo then s else copyState (sendDove (statusRec s) s)

/-! The commands. -/

/-- EXTRA_HEARTBEAT (R377). -/
def execExtraHeartbeat (s : State) : Host.Outcome State Fault Refusal := cmd extraHeartbeat s

/-- GRANT_RISE (R375). -/
def execGrantRise (s : State) : Host.Outcome State Fault Refusal := cmd grantRise s

/-- GRANT_FALL (R394). -/
def execGrantFall (s : State) : Host.Outcome State Fault Refusal := cmd grantFall s

/-- GRANT_LOST (R374). -/
def execGrantLost (s : State) : Host.Outcome State Fault Refusal := cmd grantLost s

/-- GRANT_GLITCH (R375). -/
def execGrantGlitch (s : State) : Host.Outcome State Fault Refusal := cmd grantGlitch s

/-- REFEREE_STATUS_FRAME (R379). -/
def execRefereeStatusFrame (f : RefFrame) (s : State) : Host.Outcome State Fault Refusal := cmd (refereeStatus f.bits) s

/-- REFEREE_LANE_TIMEOUT (R379). -/
def execRefereeLaneTimeout (s : State) : Host.Outcome State Fault Refusal := cmd refereeTimeout s

/-- REFEREE_DISAGREE (R379). -/
def execRefereeDisagree (s : State) : Host.Outcome State Fault Refusal := cmd refereeDisagree s

/-- DOVETAIL_SEGMENT (R380). -/
def execDovetailSegment (x : SegmentBits) (s : State) : Host.Outcome State Fault Refusal := cmd (dovetailBits x) s

/-- DOVETAIL_LINK_LOST (R383). -/
def execDovetailLinkLost (s : State) : Host.Outcome State Fault Refusal := cmd linkLost s

/-- DOVETAIL_LINK_UP (R383). -/
def execDovetailLinkUp (s : State) : Host.Outcome State Fault Refusal := cmd linkUp s

/-- PLANNED_RELEASE (R392). -/
def execPlannedRelease (s : State) : Host.Outcome State Fault Refusal := cmd plannedRelease s

/-- COMPUTE_PHASE_END (R48): the digest of its window is compared once both are there (R387). -/
def execComputePhaseEnd (sym : Nat) (s : State) : Host.Outcome State Fault Refusal :=
  cmd (fun s => compareDue (phaseEnd sym (runDue s))) s

end Sys2Proof.Machine
end

