-- ==== Sys2Proof/Machine/Mark.lean ====
section
/-! DEFINITION. Tick marks (R36, R85, R129, R131): commits, changes of AVAIL, of the converter state and of the tick numbering, what every
unit does at a mark and what leaves at it, the entry into RUN, and the time triggers. -/

namespace Sys2Proof.Machine

/-! Commits (R22, R56 to R60, R143, R601). -/

/-- The TYPE of a cell has the state (R13): INSERT_NEG and BYPASS_ALT are FB states. -/
def typeAllows (c : Cell) (st : BitVec 4) : Bool := c.ent.ctype == 1 || (st != stInsertNeg && st != stBypassAlt)

/-- A staged write of a cell-table entry (R22, R24, R601). Answers the cell and the change of AVAIL it brings. A force into a state that
the cell's new TYPE lacks ends (DESIGN CHOICE, log entry 54). -/
def commitCell (a : Nat) (e : List Byte) (c : Cell) : Cell × Option AvailChange :=
  let serial := BitVec.ofNat 64 (fld e 0 0 64)
  let change := (writtenAvail e c.ent).map fun t =>
    ({ addr := BitVec.ofNat 13 a, target := t, bySerial := decide (serial ≠ c.ent.serial) } : AvailChange)
  if serial ≠ c.ent.serial then
    (writeCellEnt e { ent := { avail := c.ent.avail }, live := { availCopy := c.ent.avail } }, change)
  else
    let d := writeCellEnt e c
    ({ d with dyn := { d.dyn with forcedTo := d.dyn.forcedTo.filter (typeAllows d) } }, change)

/-- Operations still waiting for a cell that is no longer at its address. -/
def forgetCell (a : Nat) (s : State) : State :=
  modLane (a / 128) (fun x => { x with waiting := x.waiting.filter fun o => match o.owner with
    | .assign b => b.toNat != a
    | .tracking b => b.toNat != a
    | .identRead b _ => b.toNat != a
    | _ => true }) s

/-- One entry of a committing batch is placed. -/
def commitEntry (t i : Nat) (e : List Byte) (s : State) : State :=
  if t = 0x02 then
    let (c, ch) := commitCell i e (cell s i)
    let s := if c.ent.serial ≠ (cell s i).ent.serial then forgetCell i s else s
    modCell i (fun _ => c) { s with avails := s.avails ++ ch.toList }
  else if t = 0x10 then s
  else { s with tabs := setTabIn s.tabs t i (if t = 0x07 then slotStored e else e) }

/-- What a committed entry changes beside its table: `old` the tables before the commits of the mark. -/
def commitEffect (old : KeyList (List Byte)) (t i : Nat) (e : List Byte) (s : State) : State :=
  let was := tabIn old t i
  let same := decide (tab s t i = was)
  match t with
  | 0x04 => if same then s else modMeas (fun m => { m with sv := kset {} m.sv i {} }) s
  | 0x05 => chainCommit i was s
  | 0x06 => refreshDelays (i / 2) s
  | 0x07 => slotCommit i was (fldB e 0 6) s
  | 0x09 => protCommit was s
  | 0x0E => if same then s else channelsChanged s
  | 0x0F => trigCommit i was s
  | 0x10 => swapRequest (fld e 0 0 8) { target := fldB e 1 0, len := fld e 2 0 16 } s
  | 0x11 => if same then s else setGsub i {} s
  | 0x12 => if same then s else setGpub i {} s
  | _ => s

/-- The entries of a batch in the order of its records, with their tables. -/
def batchEntries (b : List Byte) : List (Nat × Nat × List Byte) :=
  (recsOf b).1.flatMap fun r => (entriesOf r).map fun x => (r.table, x.1, x.2)

/-- A cell assigned, removed or re-armed by the commits of a mark raises its lane's PLANVER by one (R143). -/
def planVersions (old : KeyList Cell) (s : State) : State :=
  forUpto 64 s fun s l =>
    let changed := (List.range 128).any fun k =>
      let a := cellIn old (128 * l + k)
      let b := cell s (128 * l + k)
      a.ent.serial != b.ent.serial || (b.ent.serial != 0 && a.ent.arm != b.ent.arm)
    if changed then modLane l (fun x => { x with planVer := x.planVer + 1 }) s else s

/-- Held ST writes that landed before the fence of the mark commit (R59). -/
def stCommit (s : State) : State :=
  let now := s.stWrites.filter fun w => decide (w.at_ + 16 < s.markAt)
  let rest := s.stWrites.filter fun w => !decide (w.at_ + 16 < s.markAt)
  wrB TCK_COMMIT_PEND (!rest.isEmpty) (now.foldl (fun s w => wrWord w.addr w.value s) { s with stWrites := rest })

/-- The commits of the mark (R56, R59, R60): its batches in order of acceptance, and the held ST writes. -/
def commits (s : State) : State :=
  let due := s.batches.filter fun b => tickGe s.tick b.mark
  let go := match s.commitAt with
    | some t => tickGe s.tick t
    | none => false
  let s := if go then wrB TCK_COMMIT_GO false { s with commitAt := none } else s
  let s := if go || !due.isEmpty then stCommit s else s
  if due.isEmpty then s
  else
    let old := s.tabs
    let cells := s.cells
    let es := due.flatMap fun b => batchEntries b.body
    let s := { s with batches := s.batches.filter fun b => !tickGe s.tick b.mark }
    let s := es.foldl (fun s x => commitEntry x.1 x.2.1 x.2.2 s) s
    let s := planVersions cells (es.foldl (fun s x => commitEffect old x.1 x.2.1 x.2.2 s) s)
    due.foldl (fun s b => finish b.order .ok [] none s) s

/-! The tick numbering (R64, R129, R131, R424). -/

/-- The tick numbers a cell keeps move with the numbering. -/
def shiftCell (d : Tick) (c : Cell) : Cell :=
  let x := c.dyn
  { c with dyn := { x with
    refEnd := x.refEnd.map fun t => t + d
    confirm := x.confirm.map fun k => { k with apply := k.apply + d }
    holdTill := x.holdTill.map fun t => t + d
    parked := x.parked.map fun t => t + d
    lastInst := x.lastInst.map fun p => (p.1 + d, p.2)
    wins := x.wins.map fun w => { w with window := w.window + d } } }

/-- The tick numbers a lane keeps. -/
def shiftLane (d : Tick) (x : LaneSt) : LaneSt :=
  { x with
    out := x.out.map fun o => { o with etick := o.etick + d, apply := o.apply + d, busy := o.busy.map fun t => t + d }
    headers := x.headers.map fun h => (h.1 + d, h.2)
    discMap := x.discMap.map fun m => (m.1 + d, m.2)
    discPrev := x.discPrev.map fun m => (m.1 + d, m.2) }

/-- What is due some marks ahead, or was some marks ago, stays so in the new numbering. -/
def shiftTicks (d : Tick) (s : State) : State :=
  { s with
    cells := s.cells.map fun c => (c.1, shiftCell d c.2)
    lanes := s.lanes.map fun l => (l.1, shiftLane d l.2)
    arms := s.arms.map fun a => (a.1, { a.2 with
      trimEnd := a.2.trimEnd.map fun p => (p.1 + d, p.2), onsets := a.2.onsets.map fun t => t + d })
    sentWin := s.sentWin.map fun t => t + d
    closeDone := s.closeDone.map fun t => t + d
    commitAt := s.commitAt.map fun t => t + d
    accepted := s.accepted.map fun a => { a with tick := a.tick + d }
    bench := { s.bench with
      forces := s.bench.forces.map fun f => { f with act := f.act + d }
      changeTo := s.bench.changeTo.map fun c => (c.1, c.2.1 + d, c.2.2) }
    dpx := { s.dpx with
      digests := s.dpx.digests.map fun x => { x with window := x.window + d }
      partner := s.dpx.partner.map fun x => { x with window := x.window + d }
      inTime := s.dpx.inTime.map fun x => (x.1 + d, x.2)
      launched := s.dpx.launched.map fun t => t + d
      events := s.dpx.events.map fun e => (e.1 + d, e.2)
      unsentWins := s.dpx.unsentWins.map fun t => t + d
      checks := [] } }

/-- A trigger unit with TICKREF 1 whose target lies after the last old mark takes the first new mark at or after its instant (R64). -/
def retarget (oldTick : Tick) (oldMark oldLen : Nat) (s : State) (n : Nat) : State :=
  let tgt := BitVec.ofNat 32 (rd s (TIM_TRIG_TGT_LO_T n))
  let k := tickDiff tgt oldTick
  if trigArmed s n && rdB s (TIM_TRIG_CTRL_TICKREF n) && decide (0 < k) then
    let at_ := oldMark + k.toNat * oldLen
    wr (TIM_TRIG_TGT_LO_T n) ((at_ + tickLen s - 1) / tickLen s) s
  else s

/-- The rate, mode and converter state that a change of numbering brings (R28, R64, R129, R131, R132, R570). -/
def enterNumbering (k : NumKind) (s : State) : State :=
  match k with
  | .rateToFull => relineLanes { s with watch := false, suppress := 3 }
  | .rateToWatch => relineLanes { s with watch := true, suppress := 3 }
  | .laneStart => { s with watch := true, litAt := none, clk := { s.clk with applied := laneMode s } }
  | .laneStop => s

/-- The converter state after it. -/
def numberingConv (k : NumKind) (s : State) : State :=
  match k with
  | .rateToFull => if s.conv == .watch then convTo .ready s else s
  | .rateToWatch => watchEntry (if s.conv == .ready then convTo .watch s else s)
  | .laneStart => watchEntry (if s.conv == .dormant then convTo .watch s else s)
  | .laneStop => s

/-- The mark at Timecount `t` becomes the newest one: its number follows R36, in the new numbering where one begins with it. -/
def numberMark (t : Nat) (s : State) : State :=
  match s.numChange.filter fun n => n.switchAt == some t with
  | none => { s with time := max s.time t, markAt := t, tick := tickAt s t }
  | some n =>
    let oldTick := s.tick
    let oldMark := s.markAt
    let oldLen := if n.kind = .laneStop then 100000 else tickLen s
    let s := enterNumbering n.kind { s with numChange := none }
    let new := tickAt s t
    let s := forUpto 16 s (retarget oldTick oldMark oldLen)
    let s := shiftTicks (new - (oldTick + 1)) s
    ringsRestart (renumberTasks (numberingConv n.kind { s with time := max s.time t, markAt := t, tick := new }))

/-! The converter state (R28, R31, R309, R363, R571). -/

/-- The changes of state that reactions since the last mark bring (R28, R309). -/
def reactionsMark (s : State) : State :=
  let f := s.fcl
  let s := { s with fcl := { f with
    toTrip := false, toBlock := false, markReacted := f.reacted, reacted := false, superseded := f.superseded && follows s } }
  if f.toTrip then (if s.conv == .dormant || s.conv == .tripped then s else clearForces (convTo .tripped s))
  else if f.toBlock && (s.conv == .watch || s.conv == .ready || s.conv == .deblocked) then clearForces (convTo .blocked s)
  else s

/-- A safety reset that a completed sequence asked for (R363). -/
def resetMark (s : State) : State :=
  match safetyResetEval s with
  | (s, false) => s
  | (s, true) =>
    let s := mirrorEvent .safetyReset s
    if s.conv == .tripped then convTo (if s.watch then .watch else .ready) s else s

/-- A domain the running converter needs is not powered (R571). -/
def domainsMark (s : State) : State :=
  if !(s.conv == .ready || s.conv == .deblocked) then s
  else match [1, 2, 5, 6].find? fun d => !domainOn s d with
    | some d => raiseSrc { src := .supply, reason := 4, detail := BitVec.ofNat 16 d, forced := 4 } s
    | none => s

/-- The Watch profile returns at the mark at which a cancelled change would have switched (R570). -/
def profileMark (s : State) : State :=
  match s.pwr.profileAt with
  | some t => if t ≤ s.markAt then watchEntry (modPwr (fun p => { p with profileAt := none }) s) else s
  | none => s

/-! Units at a mark. -/

/-- The launch slack of the tick (R41, R47). -/
def slackMark (s : State) : State :=
  let f := largestFlight s
  let flight := if s.watch then (f + 4) / 5 else f
  let syms := symsOf s.watch (tickLen s)
  let slack := syms - 32 - launchSym s - frameLen (liveMode s) - flight
  wr TCK_STATUS_MEAS_SLACK slack (wr TCK_SLIP_SLIP_EFF (min (rd s TCK_SLIP_SLIP_LIMIT) slack)
    (wrB TCK_STATUS_FLIGHT_EXCEED (decide (rd s TCK_MAXFLIGHT_MAXFLIGHT < f)) s))

/-- Filter chains, mailboxes, sampled values, scans, detectors and arm currents at the mark; `outs` are the slot outputs as the
last phase left them, before the commits of the mark (R220, R232, R241, R277, R280, R284, R321). -/
def inputsMark (outs : KeyList SlotOut) (s : State) : State :=
  let s := forUpto 40 (sdMark s) fun s c =>
    let resets := (chain s c).running && chainsRun s && (chain s c).resetReq
    let s := chainMark outs s c
    if resets then repReset c s else s
  let s := sarMark (forUpto 16 (forUpto 64 s mbxMark) svMark)
  let s := { forUpto 16 s oscMark with loopSeen := s.loopDone }
  let cx : LoopCx := { inp := inputsNow s (s.tick + 2), slots := s.loopSeen.map fun k => (k.1, { out := k.2, fine := k.2 }), ts := 0 }
  forUpto 12 s (armMark cx)

/-- Event tasks that time triggers have asked for start (R97). -/
def trigTasksMark (s : State) : State :=
  s.clk.trigTasks.foldl (fun s n => setFlag n 0 s) { s with clk := { s.clk with trigTasks := [] } }

/-- Freeze, the quiet ticks after a switch, waits, task ages and flows (R66, R67, R132, R427, R453, R467). -/
def countsMark (s : State) : State :=
  let s := wrB TCK_STATUS_FROZEN s.freeze { s with
    frozen := s.freeze, suppress := s.suppress - 1, waitIn := if s.freeze then [] else s.waitIn }
  flowsMark (tasksMark (waitsMark (trigTasksMark s)))

/-! What leaves at a mark (R134 to R138, R377, R564). -/

/-- A LANE_STOP that takes effect at this mark: the transmitters are idle from it on (R130). -/
def stopsHere (s : State) : Bool :=
  s.conv != .deblocked && !s.fcl.markReacted && (dueCmds s).any fun a => a.cmd.opc == .laneStop

/-- A BLOCK_ACK that takes effect at this mark: the converter is no longer BLOCKED at it (R28, R602). -/
def acksHere (s : State) : Bool :=
  s.conv == .blocked && !s.fcl.markReacted && !blockLatched s && !follows s && (dueCmds s).any fun a => a.cmd.opc == .blockAck

/-- The rate-change set of the mark: the count of marks to the switch mark, or 0 after a cancellation (R136, R137). A change that a command
of this mark cancels is still pending at it. -/
def rateSetMark (s : State) : State :=
  match s.rateCancel with
  | some (w, t) => emit (.ordered 4 (rateSet 0 w)) (if t ≤ s.markAt then { s with rateCancel := none } else s)
  | none =>
    match rateSwitch s with
    | none => s
    | some (_, t) =>
      let left := (t - s.markAt) / tickLen s
      if 1 ≤ left ∧ left ≤ 16 then sendRateSet left s else s

/-- What the star lanes that run have in a tick beside their sets: a raw test pattern (R122), and the pulses of LNBRST (R116). -/
def laneOut (s : State) : State :=
  forUpto 64 s fun s l =>
    if !laneRuns s l then s
    else
      let p := rd s (LNK_CTRL_PATTERN l)
      let s := if p ≠ 0 ∧ rdB s (LNK_STATUS_UP l) then emit (.pattern l (p == 2)) s else s
      emit (.lnbrst l (winOpen (liveMode s) s.watch + rd s (LNK_BRST_START l)) (slotsOf (liveMode s)) (rd s (LNK_BRST_WIDTH l))) s

/-- The ordered sets of a mark on the star lanes, with their positions (R134). -/
def starMark (s : State) : State :=
  if !s.lanesOn || s.conv == .dormant || stopsHere s then s
  else
    let s := emit (.ordered 0 (tickSet s.tick)) s
    let n := s.sent.length
    let s := rateSetMark s
    let pos := if s.sent.length = n then 4 else 8
    laneOut (if (s.conv == .blocked && !acksHere s) || s.conv == .tripped then blockCmdSet pos s else s)

/-- What leaves at a mark that is sent. -/
def markOut (s : State) : State :=
  let s := starMark s
  if s.dev != .run then s
  else
    let s := if s.role == .solo then s else emit (.doveSet (tickSet s.tick)) s
    let s := heartbeat 1 (emit .tickOut { s with pin := { s.pin with hbOut := !s.pin.hbOut } })
    sendTelegrams s

/-! The entry into RUN (R374, R551). -/

/-- A request for RUN at the mark. -/
def runEntry (s : State) : State :=
  if !rdB s GLB_CTRL_RUN || s.dev != .setup then s
  else
    let s := wrB GLB_CTRL_RUN false s
    let refuse := fun (r : Nat) => wrB GLB_STATUS_WRERR true (wr GLB_STATUS_RUNREJ r s)
    if !rdB s CLK_STATUS_LOCK then refuse 1
    else if rdB s CLK_STATUS_BYPASS then refuse 2
    else
      let s := startPoints (allocServers (wr GLB_STATUS_DSTATE 3 { s with dev := .run }))
      let s := modDpx (fun d => { d with statusAt := s.time, laneLate := false, grantLowAt := none }) s
      if !rdB s DPX_CFG_PAIRED then interlock s
      else
        let s := setRole .resync s
        let s := if rdB s DPX_STATUS_DVL_UP then startResync s else s
        if s.dpx.grant then takeover s else interlock s

/-! The mark. -/

/-- The next mark is made, and sent or not (R36, R85). -/
def makeMark (send : Bool) (s : State) : State :=
  let s := missLimit (runDue s)
  let s := numberMark (nextMark s) s
  let outs := s.loopDone
  let s := swapsMark (resolveAvails (commits s))
  let s := ledgerMark (laneMark (inputsMark outs (if send then clockMark s else s)))
  let s := profileMark (resetMark (reactionsMark s))
  let s := slackMark (countsMark s)
  let s := if send then duplexMark s else s
  let s := lateRelease (domainsMark (shortfall s))
  let s := if send then markOut (runEntry s) else runEntry s
  sync (memRest s)

/-- The next mark is the first of a new numbering of one of the kinds given. -/
def begins (s : State) (p : NumKind → Bool) : Bool :=
  match s.numChange with
  | some n => p n.kind && n.switchAt == some (nextMark s)
  | none => false

/-- TICK_MARK: a mark that is sent. -/
def tickMark (s : State) : State := if marksRun s then makeMark true s else s

/-- TICK_MARK_NOT_SENT: a tick boundary on the bypass clock (R85). -/
def tickNotSent (s : State) : State :=
  if (s.dev == .setup || s.dev == .run) && rdB s CLK_STATUS_BYPASS then makeMark false s else s

/-- SWITCH_MARK: the mark at which a rate change takes effect (R131). -/
def switchMark (s : State) : State :=
  let s := runDue s
  if marksRun s && begins s fun k => k == .rateToFull || k == .rateToWatch then makeMark true s else s

/-- WATCH_MARK_AFTER_LANE_START: the mark at which the converter becomes WATCH (R129). -/
def watchMark (s : State) : State :=
  let s := runDue s
  if marksRun s && s.litAt.isSome && begins s fun k => k == .laneStart then makeMark true s else s

/-! Time triggers (R97 to R99). -/

/-- The action of a unit that fires. -/
def trigAct (n : Nat) (s : State) : State :=
  let x := rd s (TIM_TRIG_CTRL_TARGET n)
  match rd s (TIM_TRIG_CTRL_ACTION n) with
  | 1 => { s with clk := { s.clk with trigTasks := s.clk.trigTasks ++ [x] } }
  | 2 => if rdB s MEA_SAR_TRIG_TIME_EN then sarTrigger s else s
  | 3 => armUnit x s
  | _ => s

/-- After a firing a unit without a period is disarmed; one with a period takes its next target, beyond Timecount where a step has passed
it (R98, R99). -/
def trigNext (n : Nat) (passed : Bool) (s : State) : State :=
  let p := rd s (TIM_TRIG_PERIOD_P n)
  if p = 0 then wrB (TIM_TRIG_CTRL_ARM n) false s
  else if rdB s (TIM_TRIG_CTRL_TICKREF n) then
    let tgt := BitVec.ofNat 32 (rd s (TIM_TRIG_TGT_LO_T n))
    let k := (tickDiff (tickAt s s.time) tgt).toNat / p
    wr (TIM_TRIG_TGT_LO_T n) (tgt.toNat + p * (if passed then k + 1 else 1)) s
  else
    let tgt := trigTarget s n
    let new := tgt + p * (if passed then (s.time - tgt) / p + 1 else 1)
    wr (TIM_TRIG_TGT_LO_T n) new (wr (TIM_TRIG_TGT_HI_T n) (new / 2 ^ 32) s)

/-- The time from Timecount to a target that is still to come, 0 for one that is not (R90). -/
def timeTo (s : State) (t : Nat) : Nat := (max 0 (BitVec.ofNat 64 t - BitVec.ofNat 64 s.time).toInt).toNat

/-- A trigger unit fires at its target (R97). -/
def timeTrigger (n : Nat) (s : State) : State :=
  if !trigArmed s n || (rdB s (TIM_TRIG_CTRL_TICKREF n) && !trigReached s n s.time) then s
  else
    let s := if rdB s (TIM_TRIG_CTRL_TICKREF n) then s else { s with time := s.time + timeTo s (trigTarget s n) }
    let late := s.clk.late.getLsbD n
    let passed := s.clk.passed.getLsbD n
    let bit := BitVec.ofNat 16 (2 ^ n)
    let s := { s with clk := { s.clk with late := s.clk.late &&& ~~~bit, passed := s.clk.passed &&& ~~~bit } }
    let s := wrB (TIM_TRIG_STAT_FIRED n) true (if late then wrB (TIM_TRIG_STAT_LATE n) true s else s)
    trigNext n passed (trigAct n s)

/-! The commands. -/

/-- TICK_MARK (R36). -/
def execTickMark (s : State) : Host.Outcome State Fault Refusal := cmd tickMark s

/-- TICK_MARK_NOT_SENT (R85). -/
def execTickMarkNotSent (s : State) : Host.Outcome State Fault Refusal := cmd tickNotSent s

/-- SWITCH_MARK (R131). -/
def execSwitchMark (s : State) : Host.Outcome State Fault Refusal := cmd switchMark s

/-- WATCH_MARK_AFTER_LANE_START (R129). -/
def execWatchMarkAfterLaneStart (s : State) : Host.Outcome State Fault Refusal := cmd watchMark s

/-- TIME_TRIGGER_FIRE (R97). -/
def execTimeTriggerFire (n : Fin 16) (s : State) : Host.Outcome State Fault Refusal := cmd (timeTrigger n.val) s

end Sys2Proof.Machine
end

