-- ==== Sys2Proof/Machine/Dispatch.lean ====
section
/-! DEFINITION. One arm per command: a direct call of its meaning. -/

namespace Sys2Proof.Machine

/-- The effect of a command on everything but the queue. -/
def exec (i : Instr) (s : State) : Host.Outcome State Fault Refusal :=
  match i with
  | .tickMark => Sys2Proof.Machine.execTickMark s
  | .tickMarkNotSent => Sys2Proof.Machine.execTickMarkNotSent s
  | .mailboxStale m => Sys2Proof.Machine.execMailboxStale m s
  | .svLoss stream => Sys2Proof.Machine.execSvLoss stream s
  | .extraHeartbeat => Sys2Proof.Machine.execExtraHeartbeat s
  | .switchMark => Sys2Proof.Machine.execSwitchMark s
  | .watchMarkAfterLaneStart => Sys2Proof.Machine.execWatchMarkAfterLaneStart s
  | .upstreamWindowClose => Sys2Proof.Machine.execUpstreamWindowClose s
  | .cellMiss cell => Sys2Proof.Machine.execCellMiss cell s
  | .missingCellRecovered cell => Sys2Proof.Machine.execMissingCellRecovered cell s
  | .ledgerSampleLost channelStream => Sys2Proof.Machine.execLedgerSampleLost channelStream s
  | .refreshEnd cell => Sys2Proof.Machine.execRefreshEnd cell s
  | .computePhaseEnd sym => Sys2Proof.Machine.execComputePhaseEnd sym s
  | .launchPoint => Sys2Proof.Machine.execLaunchPoint s
  | .slipLimitExpiry => Sys2Proof.Machine.execSlipLimitExpiry s
  | .missLimitReached => Sys2Proof.Machine.execMissLimitReached s
  | .burstReceived lane slot burst => Sys2Proof.Machine.execBurstReceived lane slot burst s
  | .rangingComplete cell => Sys2Proof.Machine.execRangingComplete cell s
  | .confirmFail cell => Sys2Proof.Machine.execConfirmFail cell s
  | .trackingUpdate cell => Sys2Proof.Machine.execTrackingUpdate cell s
  | .mailboxBusyTimeout lane tag => Sys2Proof.Machine.execMailboxBusyTimeout lane tag s
  | .fwDistributionStep => Sys2Proof.Machine.execFwDistributionStep s
  | .laneLos lane => Sys2Proof.Machine.execLaneLos lane s
  | .laneCode lane => Sys2Proof.Machine.execLaneCode lane s
  | .echoEnd lane => Sys2Proof.Machine.execEchoEnd lane s
  | .blockSetRequest => Sys2Proof.Machine.execBlockSetRequest s
  | .fastPathOutput chain bits => Sys2Proof.Machine.execFastPathOutput chain bits s
  | .finePathOutput chain bits => Sys2Proof.Machine.execFinePathOutput chain bits s
  | .nomeas comparator => Sys2Proof.Machine.execNomeas comparator s
  | .sdStuck channel => Sys2Proof.Machine.execSdStuck channel s
  | .sdStuckEnd channel => Sys2Proof.Machine.execSdStuckEnd channel s
  | .sarTickTrigger => Sys2Proof.Machine.execSarTickTrigger s
  | .sarScanEnd monitors => Sys2Proof.Machine.execSarScanEnd monitors s
  | .sarResultReady channel raw => Sys2Proof.Machine.execSarResultReady channel raw s
  | .calibrationPointDone => Sys2Proof.Machine.execCalibrationPointDone s
  | .prpFrameReceived port frame => Sys2Proof.Machine.execPrpFrameReceived port frame s
  | .prpSupervisionSend pair => Sys2Proof.Machine.execPrpSupervisionSend pair s
  | .portDown port => Sys2Proof.Machine.execPortDown port s
  | .portUp port => Sys2Proof.Machine.execPortUp port s
  | .ptpInterval port kind egress => Sys2Proof.Machine.execPtpInterval port kind egress s
  | .announceTimeout port => Sys2Proof.Machine.execAnnounceTimeout port s
  | .ppsLoss => Sys2Proof.Machine.execPpsLoss s
  | .gooseTtlExpiry entry => Sys2Proof.Machine.execGooseTtlExpiry entry s
  | .gooseRepeat entry => Sys2Proof.Machine.execGooseRepeat entry s
  | .stationDeadline station => Sys2Proof.Machine.execStationDeadline station s
  | .telegramPartnerTimeout conn => Sys2Proof.Machine.execTelegramPartnerTimeout conn s
  | .telegramWdtTimeout conn => Sys2Proof.Machine.execTelegramWdtTimeout conn s
  | .telegramPortDown conn port => Sys2Proof.Machine.execTelegramPortDown conn port s
  | .safetyInputFiltered input channelB level => Sys2Proof.Machine.execSafetyInputFiltered input channelB level s
  | .safeInDiscrepancy input => Sys2Proof.Machine.execSafeInDiscrepancy input s
  | .testPulse output fellA returnedA fellB returnedB => Sys2Proof.Machine.execTestPulse output fellA returnedA fellB returnedB s
  | .feedbackChange output fbA fbB => Sys2Proof.Machine.execFeedbackChange output fbA fbB s
  | .feedbackTimerExpiry output => Sys2Proof.Machine.execFeedbackTimerExpiry output s
  | .safetyResetTimeout => Sys2Proof.Machine.execSafetyResetTimeout s
  | .prtResetWrite value => Sys2Proof.Machine.execPrtResetWrite value s
  | .pllLockDeclared aOk refB pll => Sys2Proof.Machine.execPllLockDeclared aOk refB pll s
  | .pllUnlock pll => Sys2Proof.Machine.execPllUnlock pll s
  | .lanesStopOnUnlock => Sys2Proof.Machine.execLanesStopOnUnlock s
  | .ldmismatch => Sys2Proof.Machine.execLdmismatch s
  | .pllRelock => Sys2Proof.Machine.execPllRelock s
  | .refclkALoss bVsA => Sys2Proof.Machine.execRefclkALoss bVsA s
  | .refclkBLoss => Sys2Proof.Machine.execRefclkBLoss s
  | .refclkARevert bVsA => Sys2Proof.Machine.execRefclkARevert bVsA s
  | .bypassOnOscillator => Sys2Proof.Machine.execBypassOnOscillator s
  | .lanePllUnlock pll => Sys2Proof.Machine.execLanePllUnlock pll s
  | .portPllUnlock => Sys2Proof.Machine.execPortPllUnlock s
  | .syncInEdge => Sys2Proof.Machine.execSyncInEdge s
  | .timeTriggerFire unit => Sys2Proof.Machine.execTimeTriggerFire unit s
  | .grantRise => Sys2Proof.Machine.execGrantRise s
  | .grantFall => Sys2Proof.Machine.execGrantFall s
  | .grantLost => Sys2Proof.Machine.execGrantLost s
  | .grantGlitch => Sys2Proof.Machine.execGrantGlitch s
  | .refereeStatusFrame frame => Sys2Proof.Machine.execRefereeStatusFrame frame s
  | .refereeLaneTimeout => Sys2Proof.Machine.execRefereeLaneTimeout s
  | .refereeDisagree => Sys2Proof.Machine.execRefereeDisagree s
  | .dovetailSegment seg => Sys2Proof.Machine.execDovetailSegment seg s
  | .dovetailLinkLost => Sys2Proof.Machine.execDovetailLinkLost s
  | .plannedRelease => Sys2Proof.Machine.execPlannedRelease s
  | .benchCycleEnd task outs => Sys2Proof.Machine.execBenchCycleEnd task outs s
  | .benchLockstep bench => Sys2Proof.Machine.execBenchLockstep bench s
  | .watchdog task => Sys2Proof.Machine.execWatchdog task s
  | .busError task access => Sys2Proof.Machine.execBusError task access s
  | .journalWriteDone ok => Sys2Proof.Machine.execJournalWriteDone ok s
  | .changeSwap => Sys2Proof.Machine.execChangeSwap s
  | .changeTimeout => Sys2Proof.Machine.execChangeTimeout s
  | .waitSatisfied context => Sys2Proof.Machine.execWaitSatisfied context s
  | .waitTimeout context => Sys2Proof.Machine.execWaitTimeout context s
  | .dispatch executor => Sys2Proof.Machine.execDispatch executor s
  | .preemption context => Sys2Proof.Machine.execPreemption context s
  | .serviceQuantumEnd context => Sys2Proof.Machine.execServiceQuantumEnd context s
  | .flowItemRelease flow => Sys2Proof.Machine.execFlowItemRelease flow s
  | .eventFlowFull group event => Sys2Proof.Machine.execEventFlowFull group event s
  | .foremanStall flow => Sys2Proof.Machine.execForemanStall flow s
  | .shadowEnd => Sys2Proof.Machine.execShadowEnd s
  | .supervisorWatchdog => Sys2Proof.Machine.execSupervisorWatchdog s
  | .supervisorLockstep => Sys2Proof.Machine.execSupervisorLockstep s
  | .collectorDisagreement => Sys2Proof.Machine.execCollectorDisagreement s
  | .ledgerTriggerFire unit => Sys2Proof.Machine.execLedgerTriggerFire unit s
  | .holdoffEnd unit => Sys2Proof.Machine.execHoldoffEnd unit s
  | .sqTail ctx value => Sys2Proof.Machine.execSqTail ctx value s
  | .descriptorFetch ctx bytes body => Sys2Proof.Machine.execDescriptorFetch ctx bytes body s
  | .cqHead ctx value => Sys2Proof.Machine.execCqHead ctx value s
  | .completionWrite ctx => Sys2Proof.Machine.execCompletionWrite ctx s
  | .msixCoalesceTimeout ctx events => Sys2Proof.Machine.execMsixCoalesceTimeout ctx events s
  | .hostProtocol ctx reason addr => Sys2Proof.Machine.execHostProtocol ctx reason addr s
  | .contextAttach ctx vfEnabled => Sys2Proof.Machine.execContextAttach ctx vfEnabled s
  | .contextDetach ctx => Sys2Proof.Machine.execContextDetach ctx s
  | .drainComplete ctx => Sys2Proof.Machine.execDrainComplete ctx s
  | .functionReset kind => Sys2Proof.Machine.execFunctionReset kind s
  | .nop ctx tag => Sys2Proof.Machine.execNop ctx tag s
  | .stageBatch ctx tag => Sys2Proof.Machine.execStageBatch ctx tag s
  | .batchStagingStep => Sys2Proof.Machine.execBatchStagingStep s
  | .snapRead ctx tag => Sys2Proof.Machine.execSnapRead ctx tag s
  | .ledgerFetch ctx tag => Sys2Proof.Machine.execLedgerFetch ctx tag s
  | .progLoad ctx tag => Sys2Proof.Machine.execProgLoad ctx tag s
  | .progStart ctx tag => Sys2Proof.Machine.execProgStart ctx tag s
  | .progStop ctx tag => Sys2Proof.Machine.execProgStop ctx tag s
  | .progChange ctx tag => Sys2Proof.Machine.execProgChange ctx tag s
  | .cellForce ctx tag => Sys2Proof.Machine.execCellForce ctx tag s
  | .cellUnforce ctx tag => Sys2Proof.Machine.execCellUnforce ctx tag s
  | .varForce ctx tag => Sys2Proof.Machine.execVarForce ctx tag s
  | .varUnforce ctx tag => Sys2Proof.Machine.execVarUnforce ctx tag s
  | .cellMbx ctx tag => Sys2Proof.Machine.execCellMbx ctx tag s
  | .cellFw ctx tag => Sys2Proof.Machine.execCellFw ctx tag s
  | .imgSlice ctx tag => Sys2Proof.Machine.execImgSlice ctx tag s
  | .imgFinish ctx tag => Sys2Proof.Machine.execImgFinish ctx tag s
  | .attest ctx tag => Sys2Proof.Machine.execAttest ctx tag s
  | .switchover ctx tag => Sys2Proof.Machine.execSwitchover ctx tag s
  | .laneStart ctx tag => Sys2Proof.Machine.execLaneStart ctx tag s
  | .laneStop ctx tag => Sys2Proof.Machine.execLaneStop ctx tag s
  | .rateChange ctx tag => Sys2Proof.Machine.execRateChange ctx tag s
  | .deblock ctx tag => Sys2Proof.Machine.execDeblock ctx tag s
  | .blockOrderly ctx tag => Sys2Proof.Machine.execBlockOrderly ctx tag s
  | .block ctx tag => Sys2Proof.Machine.execBlock ctx tag s
  | .blockAck ctx tag => Sys2Proof.Machine.execBlockAck ctx tag s
  | .tckCfgWrite value => Sys2Proof.Machine.execTckCfgWrite value s
  | .tckLaunchWrite value => Sys2Proof.Machine.execTckLaunchWrite value s
  | .tckMaxflightWrite value => Sys2Proof.Machine.execTckMaxflightWrite value s
  | .tckCommitGo value => Sys2Proof.Machine.execTckCommitGo value s
  | .tckFreezeWrite value => Sys2Proof.Machine.execTckFreezeWrite value s
  | .clkCommitGo value => Sys2Proof.Machine.execClkCommitGo value s
  | .clkSyncAlign value => Sys2Proof.Machine.execClkSyncAlign value s
  | .timSetGo value => Sys2Proof.Machine.execTimSetGo value s
  | .timLatch value => Sys2Proof.Machine.execTimLatch value s
  | .snapshotLatch block => Sys2Proof.Machine.execSnapshotLatch block s
  | .lnkEchoGo lane value => Sys2Proof.Machine.execLnkEchoGo lane value s
  | .meaSarTrigSw value => Sys2Proof.Machine.execMeaSarTrigSw value s
  | .meaCalGo value => Sys2Proof.Machine.execMeaCalGo value s
  | .flcRst high value => Sys2Proof.Machine.execFlcRst high value s
  | .fclFswClear high value => Sys2Proof.Machine.execFclFswClear high value s
  | .firstClr => Sys2Proof.Machine.execFirstClr s
  | .priorClr => Sys2Proof.Machine.execPriorClr s
  | .ldgArm value => Sys2Proof.Machine.execLdgArm value s
  | .ldgDisarm value => Sys2Proof.Machine.execLdgDisarm value s
  | .ldgFire value => Sys2Proof.Machine.execLdgFire value s
  | .ldgCfgWrite value => Sys2Proof.Machine.execLdgCfgWrite value s
  | .secFuseBurn value => Sys2Proof.Machine.execSecFuseBurn value s
  | .fuseBurnDone => Sys2Proof.Machine.execFuseBurnDone s
  | .epochRaise value => Sys2Proof.Machine.execEpochRaise value s
  | .glbCtrlRun value => Sys2Proof.Machine.execGlbCtrlRun value s
  | .dbgHalt jtag value => Sys2Proof.Machine.execDbgHalt jtag value s
  | .dbgResume value => Sys2Proof.Machine.execDbgResume value s
  | .registerWrite addr value byteEnables pf => Sys2Proof.Machine.execRegisterWrite addr value byteEnables pf s
  | .bootRom checks => Sys2Proof.Machine.execBootRom checks s
  | .firmwareStart => Sys2Proof.Machine.execFirmwareStart s
  | .externalReset straps => Sys2Proof.Machine.execExternalReset straps s
  | .pd0PowerOnReset => Sys2Proof.Machine.execPd0PowerOnReset s
  | .supplyWarn rail => Sys2Proof.Machine.execSupplyWarn rail s
  | .supplyFault rail => Sys2Proof.Machine.execSupplyFault rail s
  | .supplyReset rail => Sys2Proof.Machine.execSupplyReset rail s
  | .domainPowerTimeout domain => Sys2Proof.Machine.execDomainPowerTimeout domain s
  | .pd12IdleOff => Sys2Proof.Machine.execPd12IdleOff s
  | .feedStateChange feedB millivolts => Sys2Proof.Machine.execFeedStateChange feedB millivolts s
  | .polgQualified feedB => Sys2Proof.Machine.execPolgQualified feedB s
  | .temperature sixteenths => Sys2Proof.Machine.execTemperature sixteenths s
  | .dovetailLinkUp => Sys2Proof.Machine.execDovetailLinkUp s
  | .domainPowerGood domain => Sys2Proof.Machine.execDomainPowerGood domain s
  | .flashWriteDone => Sys2Proof.Machine.execFlashWriteDone s
  | .safeOutReadbackMismatch output channelB => Sys2Proof.Machine.execSafeOutReadbackMismatch output channelB s

end Sys2Proof.Machine
end

