-- ==== Sys2Proof/Machine/Idle.lean ====
section
/-! DEFINITION. What passes on an empty queue: one core cycle of Timecount (R85, R88). -/

namespace Sys2Proof.Machine

/-- The nominal period of the core clock in ns (R85, R88): 1 on the PLL output, 10 on REFCLK_B, 20 on the oscillator. -/
def coreNs (s : State) : Nat := if !rdB s CLK_STATUS_BYPASS then 1 else if s.clk.onOsc then 20 else 10

/-- One core cycle with no command: Timecount advances by its period, and a commit held behind a reference switch goes on once the switch is
complete; nothing else happens (DESIGN CHOICE, log entry 1). -/
def idleTick (s : State) : State :=
  if dead s then { s with sent := [] } else releaseCommit { s with time := s.time + coreNs s, sent := [] }

end Sys2Proof.Machine
end

