-- ==== Sys2Proof/WellFormed.lean ====
section
/-! DEFINITION. Which commands are well formed: list operands have the length their format states. -/

namespace Sys2Proof

/-- A descriptor has 64 bytes (R493); every other operand is bounded by its type. -/
def Instr.wellFormed : Instr → Bool
  | .descriptorFetch _ b _ => b.length == 64
  | _ => true

end Sys2Proof
end

