-- ==== Sys2Proof/Safety.lean ====
section
/-! DEFINITION. The terms the statements use: a command completing, the state it starts from, which registers a write may
reach, what raising a fault source may change, and the states in which a device does nothing. -/

namespace Sys2Proof.Machine

/-! Completing. -/

/-- Command `c` answers a next state from `s`, and that state is as `post` says. -/
def Completes (c : Instr) (s : State) (post : State → Prop) : Prop := ∃ t, exec c s = .next t ∧ post t

/-- The device acts on commands: it is neither in RESET nor in FAILSTOP (R27, R412). -/
def Live (s : State) : Prop := dead s = false

/-- A write to the register at address `a` acts at once: the device is live, the register answers in its state and the power
domain of its block is on (R584). -/
def Writable (a : Nat) (s : State) : Prop := dead s = false ∧ answers s a = true ∧ domainOn s (domainOf a) = true

/-- The commands that act in RESET too, and but for the boot ROM and the failstops in FAILSTOP: the resets, supplies, battery feeds and
temperature of PD0, what the supervisor detects (R27), and the boot ROM, with which a device leaves RESET. -/
def pd0Row : Instr → Bool
  | .externalReset _ => true
  | .pd0PowerOnReset => true
  | .supplyWarn _ => true
  | .supplyFault _ => true
  | .supplyReset _ => true
  | .feedStateChange _ _ => true
  | .polgQualified _ => true
  | .temperature _ => true
  | .supervisorWatchdog => true
  | .supervisorLockstep => true
  | .collectorDisagreement => true
  | .bootRom _ => true
  | _ => false

/-! Frames. -/

/-- From `s` to `t` nothing changes but registers at the addresses listed, and nothing is sent. -/
def OnlyRegs (l : List Nat) (s t : State) : Prop :=
  t = { s with sent := [], regs := t.regs } ∧ ∀ a, a ∉ l → rdWord t a = rdWord s a

/-- From `s` to `t` nothing changes, and nothing is sent. -/
def Unchanged (s t : State) : Prop := t = { s with sent := [] }

/-- Every register outside `f` keeps its value. -/
def KeepsRegs (f : Nat → Bool) (s t : State) : Prop := ∀ a, f a = false → rdWord t a = rdWord s a

/-- The registers that raising a fault source may write: those of the fault collector, the state of the safety outputs, the
event tasks' PEND bits and their overrun counter, the count of lost windows and DPX_STATUS (R398, R401, R353, R455, R137, R387). -/
def raiseReg (a : Nat) : Bool :=
  decide ((0x58000 ≤ a ∧ a < 0x60000) ∨ (0x48010 ≤ a ∧ a < 0x48020) ∨ a = 0x60108 ∨ (0x61000 ≤ a ∧ a < 0x62000) ∨
    a = 0x401C ∨ a = 0x50004)

/-- A cell without the transitions commanded in its windows. -/
def Cell.untold (c : Cell) : Cell := { c with dyn := { c.dyn with wins := c.dyn.wins.map fun x => { x with ntrans := 0 } } }

/-- The cells stand as they were, but for transitions of windows whose frames a cancelled rate change supersedes (R53, R137). -/
def KeepsCells (s t : State) : Prop := t.cells.map (fun c => (c.1, c.2.untold)) = s.cells.map (fun c => (c.1, c.2.untold))

/-- A state without what raising a fault source may change beside registers: the collector, the safety outputs, the duplex
sender, event flags and flows, trigger firings, a rate change under way with the transitions it supersedes, and what is sent. -/
def State.base (s : State) : State :=
  { s with regs := [], sent := [], prot := {}, dpx := {}, fcl := {}, fmn := {}, ledger := {}, numChange := none
           rateCancel := none, pwr := {}, cells := s.cells.map fun c => (c.1, c.2.untold) }

/-- Source `x` is raised between `s` and `t`: its bit of the Fault Status Word is latched, and no other bit changes (R398). -/
def Raised (x : Src) (s t : State) : Prop := ∀ j, j < 47 → latched t j = (latched s j || j == srcBit x)

/-- What raising a source leaves as it is: everything but `State.base` strips, and every register outside `raiseReg` (R398). -/
def RaiseFrame (s t : State) : Prop := t.base = s.base ∧ KeepsRegs raiseReg s t

/-- No output of the safety part is energised (R353). -/
def OutputsOff (s : State) : Prop := ∀ k, k < 4 → (sout s k).energised = false

/-- The waiting events of group `g`, oldest first (R505). -/
def evQueue (s : State) (g : Nat) : List DevEvent := (kget ({} : EventFlow) s.fmn.evq g).queue

/-! Host commands. -/

/-- The row of an opcode of the host, for a context and a tag. -/
def hostInstr (o : Opcode) (n : CtxIx) (tag : BitVec 16) : Instr :=
  match o with
  | .nop => .nop n tag
  | .stageBatch => .stageBatch n tag
  | .snapRead => .snapRead n tag
  | .ledgerFetch => .ledgerFetch n tag
  | .progLoad => .progLoad n tag
  | .progStart => .progStart n tag
  | .progStop => .progStop n tag
  | .progChange => .progChange n tag
  | .cellForce => .cellForce n tag
  | .cellUnforce => .cellUnforce n tag
  | .varForce => .varForce n tag
  | .varUnforce => .varUnforce n tag
  | .cellMbx => .cellMbx n tag
  | .cellFw => .cellFw n tag
  | .imgSlice => .imgSlice n tag
  | .imgFinish => .imgFinish n tag
  | .attest => .attest n tag
  | .switchover => .switchover n tag
  | .laneStart => .laneStart n tag
  | .laneStop => .laneStop n tag
  | .rateChange => .rateChange n tag
  | .deblock => .deblock n tag
  | .blockOrderly => .blockOrderly n tag
  | .block => .block n tag
  | .blockAck => .blockAck n tag

/-- The accepted command of context `n` with opcode `o` and tag `tag` whose effective tick has come and which has not begun (a
LEDGER_FETCH begins with its acceptance), the first of them in order of acceptance (R463, R498). -/
def dueHost (s : State) (o : Opcode) (n : Nat) (tag : BitVec 16) : Option Accepted :=
  (dueCmds s).find? fun a => a.cmd.opc == o && decide (a.cmd.ctx = n) && a.cmd.tag == tag && (!a.begun || o == .ledgerFetch)

/-- The row of opcode `o` acts for the accepted command `a` on a live device: it is due, no other accepted command has its
number, the host sent it to this device, and its context takes completions (R463, R498, R512, R513). -/
def DueRow (s : State) (o : Opcode) (n : CtxIx) (tag : BitVec 16) (a : Accepted) : Prop :=
  Live s ∧ dueHost s o n.val tag = some a ∧ (s.accepted.find? fun x => x.order == a.order) = some a ∧ a.cmd.mirrored = false ∧
    hDiscards s n.val = false

/-- Between `s` and `t` the accepted command `a` has completed with status `st`: it is no longer accepted, and its
completion is the newest item of its context's completion flow (R500, R502). -/
def Completed (a : Accepted) (st : Status) (t : State) : Prop :=
  (t.accepted.any fun b => b.order == a.order) = false ∧
    ∃ c r, (hctx t a.cmd.ctx).out = r ++ [.completion c] ∧ c.tag = a.cmd.tag ∧ c.status = st ∧ c.etick = a.tick

/-- The newest completion of the context of `a` carries the result `b` for the command's host address (R502). -/
def HasResult (a : Accepted) (b : List Byte) (t : State) : Prop :=
  ∃ c r, (hctx t a.cmd.ctx).out = r ++ [.completion c] ∧ c.result = some (a.cmd.haddr, b)

/-- The newest completion of the context of `a` carries the bytes `b` as INFO (R502, R503). -/
def HasInfo (a : Accepted) (b : List Byte) (t : State) : Prop :=
  ∃ c r, (hctx t a.cmd.ctx).out = r ++ [.completion c] ∧ c.info = b

/-- A released command meets no ground of refusal (R376, R487, R494, R498, R499, R553, R608). -/
def Admissible (s : State) (c : HostCmd) : Prop :=
  (∀ k, c.opc.cls = some k → rdBit s (HST_PERM_CLASS c.ctx) k = true) ∧
    (follows s = true → c.opc.cls ∈ [some 1, some 2, some 6, some 7, some 8]) ∧
    (c.opc.cls = some 9 ∨ c.opc = .progStart → s.dev = .run) ∧
    tickGe (effective s c) (earliestTick s c) = true ∧ tickGe c.dlv (effective s c) = true ∧
    (c.opc = .progChange → s.bench.pstate = .running → s.bench.staged.isSome = true) ∧
    (c.opc = .imgSlice → fld c.param 4 0 32 + c.len ≤ 2 ^ 26) ∧
    ownFault s c (effective s c) = 0 ∧ numberingFault s c (effective s c) = 0 ∧ breaksBatch s c (effective s c) = false ∧
    (c.opc = .stageBatch → (batchFault s (effective s c) c.body).isNone = true)

end Sys2Proof.Machine
end

