-- ==== Sys2Proof/Certificates/Slice0/Obligations.lean ====
section
/-! DEFINITION. The statements about the model, by the numbered rules of the spec. -/

open Sys2Proof Sys2Proof.Machine

/-! The queue, reset and the dead device. -/

/-- A step takes the command at the front of the queue and executes it with the queue's rest. -/
def Obligations.QueueFront : Prop :=
  ∀ (c : Instr) (r : List Instr) (s : State), step { s with pending := c :: r } = exec c { s with pending := r }

/-- With no command waiting a live device lets one core cycle of Timecount pass: 1 ns on the PLL output, and on the bypass
clock 10 ns, or 20 ns while that is the on-die oscillator (R85, R88); a divider commit held behind a reference switch that
is then over goes on (R73), and nothing else happens. A device in RESET or FAILSTOP does nothing. The choice that a step on
an empty queue is one cycle is the model's own (log entry 1). -/
def Obligations.EmptyQueueCycle : Prop :=
  ∀ s : State, s.pending = [] →
    let now := s.time + (if rdB s CLK_STATUS_BYPASS = false then 1 else if s.clk.onOsc then 20 else 10)
    (dead s = false → rdB s CLK_COMMIT_PEND = false ∨ now < s.clk.switchEnd → step s = .next { s with time := now, sent := [] }) ∧
    (dead s = false → rdB s CLK_COMMIT_PEND = true → s.clk.switchEnd ≤ now → ∃ t, step s = .next t ∧ t.time = now ∧
      rdB t CLK_COMMIT_PEND = false ∧ t.conv = s.conv ∧ t.cells = s.cells ∧ t.pending = []) ∧
    (dead s = true → step s = .next { s with sent := [] })

/-- A command whose list operand has not the length its format states ends in the fault illFormed and in nothing else; every
other command answers a next state, and leaves the queue of commands to the step. While every waiting command is well
formed, every step answers a next state, the queue shortens by its front, and every waiting command is still well formed: no
run of such commands ends in a fault or a refusal. The model's own part: log entry 2. -/
def Obligations.EveryStepProceeds : Prop :=
  (∀ (c : Instr) (s : State),
     (c.wellFormed = false → exec c s = .fault .illFormed) ∧
       (c.wellFormed = true → ∃ t, exec c s = .next t ∧ t.pending = s.pending)) ∧
  (∀ s : State, (∀ c ∈ s.pending, c.wellFormed = true) →
     ∃ t, step s = .next t ∧ t.pending = s.pending.tail ∧ ∀ c ∈ t.pending, c.wellFormed = true)

/-- After reset every register reads its reset word (R583); among them the words of the register map written out here
(R591). After reset the device is in BOOT, the converter DORMANT, the lanes dark, no demand latched and every output off, no
command is waiting or accepted, and every sparse table is in its canonical form. The model's own part: log entry 6. -/
def Obligations.ResetState : Prop :=
  ((∀ a, rdWord State.reset a = regReset a) ∧ rdWord State.reset 0x0 = 0x7A310000#32 ∧ rdWord State.reset 0x14 = 1#32 ∧
     rdWord State.reset 0x58000 = 0#32 ∧ rdWord State.reset 0x7801C = 0x3FF#32) ∧
  (State.reset.dev = .boot ∧ State.reset.conv = .dormant ∧ State.reset.role = .solo ∧ State.reset.lanesOn = false ∧
     OutputsOff State.reset ∧ State.reset.pending = [] ∧ State.reset.accepted = [] ∧
     (∀ j, j < 47 → latched State.reset j = false) ∧ kwf regReset State.reset.regs = true ∧
     kwf tabDefault State.reset.tabs = true ∧ kwf (fun _ => ({} : Cell)) State.reset.cells = true)

/-- In FAILSTOP and RESET no command but those of PD0 (resets, supplies, feeds, temperature), of its supervisor and the boot
ROM changes anything (R27, R412). FAILSTOP is left only by a reset: an external reset, PD0's power-on reset, or the loss of
VAON, which is one (R412, R567, R568). A device that has failed stays exactly as it is, step after step, for as long as no
command of PD0 and no boot is among those that wait: the invariant holds the whole state but for the queue and for what was
sent last (R412). The model's own part: log entry 49. -/
def Obligations.DeadDevice : Prop :=
  (∀ (c : Instr) (s : State), dead s = true → c.wellFormed = true → pd0Row c = false → exec c s = .next { s with sent := [] }) ∧
  (∀ (c : Instr) (s t : State), s.dev = .failstop → exec c s = .next t → t.dev ≠ .failstop →
     (∃ straps, c = .externalReset straps) ∨ c = .pd0PowerOnReset ∨ c = .supplyFault 2) ∧
  (∀ (k s t : State), dead s = true → { s with pending := [], sent := [] } = k → (∀ c ∈ s.pending, pd0Row c = false) →
     step s = .next t →
     dead t = true ∧ { t with pending := [], sent := [] } = k ∧ ∀ c ∈ t.pending, pd0Row c = false)

/-- The register file and the tables keep their canonical form, whatever command is stepped: keys strictly rising and no
entry equal to what an unlisted key reads as, so that files that read alike are equal data. -/
def Obligations.SparseListsCanonical : Prop :=
  ∀ s t : State, kwf regReset s.regs = true → kwf tabDefault s.tabs = true → step s = .next t →
    kwf regReset t.regs = true ∧ kwf tabDefault t.tabs = true

/-- The converter's transitions (R28, R29), on a device that commands the cells and holds no event of a partner back.
Whatever the command, a converter that was not DEBLOCKED is DEBLOCKED afterwards only in RUN and by an accepted DEBLOCK
whose tick has come; a TRIPPED converter leaves that state only through a completed safety reset sequence, a LANE_STOP whose
tick has come or a reset; a DORMANT one leaves it only with a lane start under way. -/
def Obligations.ConverterStates : Prop :=
  ∀ (c : Instr) (s t : State), commands s = true → s.dpx.events = [] → exec c s = .next t →
    let due := fun (o : Opcode) => ∃ a ∈ s.accepted, a.cmd.opc = o ∧ tickGe s.tick a.tick = true
    (t.conv = .deblocked → s.conv = .deblocked ∨ (s.dev = .run ∧ due .deblock)) ∧
      (s.conv = .tripped → t.conv = .tripped ∨ t.conv = .dormant ∨ s.prot.resetAt = true ∨ due .laneStop) ∧
      (s.conv = .dormant → t.conv = .dormant ∨ ∃ n, s.numChange = some n ∧ n.kind = .laneStart)

/-! The fault collector (chapter 14). -/

/-- The three conditions of the failstop (R412), in any state but FAILSTOP itself (R27): the cause is shown, the device and
its role are FAILSTOP, the lanes are dark and no longer run, FAIL_N is low and every safety output is de-energised. The
cells, tables and converter state are left as they are. -/
def Obligations.FailstopCauses : Prop :=
  ∀ s : State, s.dev ≠ .failstop →
    let lanes := fun (a : Nat) => a == LNK_GSTAT_READY.addr || (List.range 69).any fun l => a == (LNK_STATUS_UP l).addr
    let post := fun (n : Nat) (t : State) =>
      t.dev = .failstop ∧ t.role = .failstop ∧ t.lanesOn = false ∧ t.pin.failN = false ∧ t.pin.txdisG0 = true ∧
        t.pin.txdisG1 = true ∧ rd t FCL_FSCAUSE_CAUSE = n ∧ rd t GLB_STATUS_DSTATE = 4 ∧
        (∀ l, l < 69 → rdB t (LNK_STATUS_UP l) = false) ∧
        OutputsOff t ∧ t.conv = s.conv ∧ t.cells = s.cells ∧ t.tabs = s.tabs ∧ t.fcl = s.fcl ∧ t.sent = [] ∧
        KeepsRegs (fun a => a == 0x14 || a == FCL_FSCAUSE_CAUSE.addr || (decide (0x48010 ≤ a) && decide (a < 0x48020)) || lanes a) s t
    Completes .supervisorLockstep s (post 1) ∧ Completes .supervisorWatchdog s (post 2) ∧
      Completes .collectorDisagreement s (post 3)

/-- FIRST_CLR frees FCL_FIRST for the next record and PRIOR_CLR clears PRIOR (R405, R413); each clears its bit of FCL_STATUS
and nothing else. Writing 1 to bits of FCL_FSW_LO or FCL_FSW_HI clears exactly those latched bits whose condition no longer
holds; a bit whose condition holds stays, and the write is recorded in WRERR (R398). No other source's bit moves. The end of
the running shadow that ends first removes it; its record is posted again exactly if something merged into it (R405, R407).
The model's own part: log entry 4. -/
def Obligations.CollectorCommands : Prop :=
  (∀ s : State, Writable 0x58014 s →
     Completes .firstClr s (fun t =>
       rdB t FCL_STATUS_FIRSTV = false ∧ rdB t FCL_STATUS_PRIOR = rdB s FCL_STATUS_PRIOR ∧
         rd t FCL_STATUS_MAXSEV = rd s FCL_STATUS_MAXSEV ∧ (∀ a, a ≠ 0x58010 → rdWord t a = rdWord s a) ∧
         t = { s with sent := [], regs := t.regs, fcl := { s.fcl with firstLive := false } }) ∧
     Completes .priorClr s (fun t =>
       rdB t FCL_STATUS_PRIOR = false ∧ rdB t FCL_STATUS_FIRSTV = rdB s FCL_STATUS_FIRSTV ∧
         rd t FCL_STATUS_MAXSEV = rd s FCL_STATUS_MAXSEV ∧ OnlyRegs [0x58010] s t)) ∧
  (∀ (high : Bool) (v : Word) (s : State), Writable (if high then 0x58004 else 0x58000) s →
     Completes (.fclFswClear high v) s (fun t =>
       (∀ j, j < 47 → latched t j =
         (latched s j && !(decide (32 ≤ j) == high && v.getLsbD (j % 32) && !active s j))) ∧
       rdB t FCL_STATUS_WRERR = (rdB s FCL_STATUS_WRERR ||
         (List.range 47).any fun j => decide (32 ≤ j) == high && v.getLsbD (j % 32) && active s j) ∧
       (∀ j, j < 47 → active t j = active s j) ∧ t.cells = s.cells ∧ t.conv = s.conv ∧ t.fcl.ring = s.fcl.ring)) ∧
  (∀ (s : State) (h : Shadow), Live s → firstShadow s = some h →
     Completes .shadowEnd s (fun t =>
       t.time = max s.time h.ends ∧
         t.fcl.shadows = s.fcl.shadows.filter (fun g => decide (g.record.rseq ≠ h.record.rseq)) ∧
         t.fcl.ring = s.fcl.ring ∧ t.fcl.first = s.fcl.first ∧
         evQueue t 0 = evQueue s 0 ++ (if h.touched then [{
           ecode := 0x0101, tick := h.record.tick, time := h.record.time.toNat,
           data := (recBytes h.record).take 16 ++ (recBytes h.record).drop 28 }] else []) ∧
         (∀ j, j < 47 → latched t j = latched s j) ∧ t.cells = s.cells ∧ t.conv = s.conv))

/-! Clocks and time (chapter 03). -/

/-- LOCK_FILT high for 100 µs with the internal detector in agreement declares lock: LOCK is set and SLIPDET clear, the
references are shown as their monitors find them, REFCLK_B against REFCLK_A while both are good (R81), the lane PLLs and the
port PLL lock with it, and PLL_UNLOCK's condition ends (R75, R76); FORCE_B selects a good REFCLK_B (R83). Against the
detector no lock is declared and SLIPDET shows it. While lock stands only the monitors' findings are taken, and a clock
found good stays so. Loss of main-PLL lock (R84): LOCK clears, PLL_UNLOCK is raised and active, the lanes are to stop 2 µs
later, and where the lanes are lit the block set leaves at once; the loss of SYMCLK_IN clears SYM_OK too (R87). The
converter state, the cells and the tables stay. The model's own part: log entries 4, 15, 64. -/
def Obligations.PllLock : Prop :=
  (∀ (a b y slip : Bool) (m : BitVec 24) (s : State), Live s →
     let stays := fun (t : State) => t.conv = s.conv ∧ t.time = s.time ∧ t.cells = s.cells ∧ t.tabs = s.tabs ∧
       (rdB s CLK_CFG_FORCE_B = false ∨ b = false → t.clk = s.clk ∧ rdB t CLK_STATUS_REFSEL = rdB s CLK_STATUS_REFSEL) ∧
       (rdB s CLK_CFG_FORCE_B = true → b = true → delayLocked s = false → rdB t CLK_STATUS_REFSEL = true)
     let shows := fun (a b y : Bool) (t : State) => rdB t CLK_STATUS_A_OK = a ∧ rdB t CLK_STATUS_B_OK = b ∧
       rdB t CLK_STATUS_SYM_OK = y ∧ rd t CLK_REFMON_B_VS_A = (if a && b then m.toNat else rd s CLK_REFMON_B_VS_A)
     (rdB s CLK_STATUS_LOCK = false → slip = false → Completes (.pllLockDeclared a ⟨b, m⟩ ⟨slip, y⟩) s (fun t =>
       rdB t CLK_STATUS_LOCK = true ∧ rdB t CLK_STATUS_SLIPDET = false ∧ shows a b y t ∧ rd t CLK_STATUS_LPLL_LOCK = 15 ∧
         rdB t CLK_STATUS_PORT_LOCK = true ∧ active t 0 = false ∧ stays t)) ∧
     (rdB s CLK_STATUS_LOCK = false → slip = true → Completes (.pllLockDeclared a ⟨b, m⟩ ⟨slip, y⟩) s (fun t =>
       rdB t CLK_STATUS_LOCK = false ∧ rdB t CLK_STATUS_SLIPDET = true ∧ shows a b y t ∧ stays t)) ∧
     (rdB s CLK_STATUS_LOCK = true → (b = true ∨ rdB s CLK_STATUS_B_OK = false) →
       Completes (.pllLockDeclared a ⟨b, m⟩ ⟨slip, y⟩) s (fun t =>
         rdB t CLK_STATUS_LOCK = true ∧ rdB t CLK_STATUS_SLIPDET = rdB s CLK_STATUS_SLIPDET ∧
           shows (a || rdB s CLK_STATUS_A_OK) b (y || rdB s CLK_STATUS_SYM_OK) t ∧ stays t))) ∧
  (∀ (p : PllSeen) (s : State), Live s → rdB s CLK_STATUS_LOCK = true →
     Completes (.pllUnlock p) s (fun t =>
       rdB t CLK_STATUS_LOCK = false ∧ rdB t CLK_STATUS_SLIPDET = p.slip ∧ t.clk.stopAt = some (s.time + 2000) ∧
         rdB t CLK_STATUS_SYM_OK = (rdB s CLK_STATUS_SYM_OK && p.symOk) ∧
         Raised .pllUnlock s t ∧ active t 0 = true ∧ (s.lanesOn = true → .blockSet ∈ t.sent) ∧ t.conv = s.conv ∧
         KeepsCells s t ∧ t.tabs = s.tabs))

/-- The two detectors' disagreement for 1 ms shows LDMISMATCH and raises CONFIG_INTEGRITY, once for each time (R76);
PLL_RELOCK returns the core to the PLL output and resets every running filter chain (R86, R248). The bypass clock on the
on-die oscillator (R84, R367): whatever the severity of REF_LOSS, every safety output is de-energised, and a converter that
is not DORMANT on a device that commands the cells is to trip at the next mark. The references (R81 to R83): loss of
REFCLK_A raises REF_LOSS and, with a good REFCLK_B outside delay-locked mode, selects it; loss of REFCLK_B raises REF_LOSS,
and a PLL that runs on it returns to a good REFCLK_A; the return to REFCLK_A selects it again with the correction of FRAC.
The model's own part: log entries 16, 63. -/
def Obligations.ClockReferences : Prop :=
  (∀ s : State, Live s →
     (rdB s CLK_STATUS_LOCK = false → Completes .ldmismatch s (fun t =>
       rdB t CLK_STATUS_LDMISMATCH = true ∧ rdB t CLK_STATUS_SLIPDET = true ∧ Raised .configIntegrity s t ∧
         t.base = s.base ∧ KeepsRegs (fun a => raiseReg a || a == CLK_STATUS_LOCK.addr) s t)) ∧
     (rdB s CLK_STATUS_LOCK = true → rdB s CLK_STATUS_BYPASS = true → Completes .pllRelock s (fun t =>
       rdB t CLK_STATUS_BYPASS = false ∧ rdB t TIM_STATUS_COARSE = false ∧ t.clk.onOsc = false ∧
         (∀ c, c < 40 → (chain t c).running = (chain s c).running ∧
           ((chain s c).running = true → (chain t c).resetReq = true)) ∧
         t.cells = s.cells ∧ t.conv = s.conv ∧ t.time = s.time))) ∧
  (∀ s : State, Live s → rdB s CLK_STATUS_BYPASS = true → s.clk.onOsc = false →
     Completes .bypassOnOscillator s (fun t =>
       t.clk.onOsc = true ∧ rdB t CLK_STATUS_B_OK = false ∧ Raised .refLoss s t ∧ OutputsOff t ∧
         (s.conv ≠ .dormant → s.role = .solo ∨ s.role = .active → t.fcl.toTrip = true) ∧
         KeepsCells s t ∧ t.conv = s.conv)) ∧
  (∀ (b : BitVec 24) (s : State), Live s →
     (rdB s CLK_STATUS_A_OK = true → Completes (.refclkALoss b) s (fun t =>
       rdB t CLK_STATUS_A_OK = false ∧ Raised .refLoss s t ∧ rd t CLK_REFMON_B_VS_A = b.toNat ∧
         rdB t CLK_STATUS_REFSEL = (rdB s CLK_STATUS_REFSEL || (rdB s CLK_STATUS_B_OK && !delayLocked s)) ∧
         KeepsCells s t ∧ t.conv = s.conv)) ∧
     (rdB s CLK_STATUS_B_OK = true → Completes .refclkBLoss s (fun t =>
       rdB t CLK_STATUS_B_OK = false ∧ Raised .refLoss s t ∧
         rdB t CLK_STATUS_REFSEL = (rdB s CLK_STATUS_REFSEL && !(rdB s CLK_STATUS_A_OK && !delayLocked s)) ∧
         KeepsCells s t ∧ t.conv = s.conv)) ∧
     (rdB s CLK_CFG_REVERT = true → rdB s CLK_CFG_FORCE_B = false → rdB s CLK_STATUS_REFSEL = true → delayLocked s = false →
       Completes (.refclkARevert b) s (fun t =>
         rdB t CLK_STATUS_A_OK = true ∧ rdB t CLK_STATUS_REFSEL = false ∧ rd t CLK_REFMON_B_VS_A = b.toNat ∧
           t.clk.frac = clampFrac (fracInt s.clk.frac + refCorrection (signed 24 b.toNat)) ∧ t.sent = [] ∧
           KeepsRegs (fun a => a == CLK_STATUS_LOCK.addr || a == CLK_REFMON_B_VS_A.addr) s t ∧ t.cells = s.cells ∧
           t.conv = s.conv ∧ t.time = s.time)))

/-- The committed divider (R72, R73): GO takes NINT at once, keeps FRAC clamped for the next mark, and reads 1 until then;
during a reference switch the commit is held and PEND reads 1; a NINT other than 50 is refused and recorded; in delay-locked
mode GO has no effect. A write to CLK_SYNC with a code in force and an offset in range is taken whole; ALIGN outside
DORMANT, the reserved code and an offset of a second or more are refused and recorded (R79, R600). The model's own part: log
entries 16, 63. -/
def Obligations.ClockRegisterWrites : Prop :=
  (∀ (v : Word) (s : State), Writable 0x200C s → rdB s CLK_COMMIT_PEND = false →
     (v.getLsbD 0 = true → delayLocked s = false → rdB s CLK_COMMIT_GO = false →
       (s.clk.switchEnd ≤ s.time → rd s CLK_PLL_NINT = 50 → (s.clk.nint = 50 ∨ s.dev = .setup) → servoOwns s = false →
         Completes (.clkCommitGo v) s (fun t =>
           rdB t CLK_COMMIT_GO = true ∧ t.clk = { s.clk with nint := 50, fracNext := some (clampFrac (rdI s CLK_FRAC_FRAC)) } ∧
             (s.role ≠ .active → t = { s with sent := [], regs := t.regs, clk := t.clk }) ∧
             (∀ a, a ≠ 0x200C → rdWord t a = rdWord s a) ∧ t.cells = s.cells ∧ t.conv = s.conv ∧ t.time = s.time)) ∧
       (s.clk.switchEnd ≤ s.time → rd s CLK_PLL_NINT ≠ 50 → Completes (.clkCommitGo v) s (fun t =>
         rdB t CLK_STATUS_WRERR = true ∧ rdB t CLK_COMMIT_GO = false ∧ OnlyRegs [CLK_STATUS_WRERR.addr, 0x200C] s t)) ∧
       (s.time < s.clk.switchEnd → Completes (.clkCommitGo v) s (fun t =>
         rdB t CLK_COMMIT_GO = true ∧ rdB t CLK_COMMIT_PEND = true ∧ OnlyRegs [0x200C] s t))) ∧
     (v.getLsbD 0 = false ∨ delayLocked s = true ∨ rdB s CLK_COMMIT_GO = true → Completes (.clkCommitGo v) s (Unchanged s))) ∧
  (∀ (v : Word) (s : State), Writable 0x2018 s →
     let mode := v.toNat % 4
     let ofs := v.toNat / 4
     (mode ≠ 3 → ofs < 1000000000 → (mode = 2 → s.conv = .dormant) → Completes (.clkSyncAlign v) s (fun t =>
       rd t CLK_SYNC_MODE = mode ∧ rd t CLK_SYNC_SYNC_OFS = ofs ∧ OnlyRegs [0x2018] s t)) ∧
     ((mode = 2 ∧ s.conv ≠ .dormant) ∨ mode = 3 ∨ 1000000000 ≤ ofs → Completes (.clkSyncAlign v) s (fun t =>
       rdB t CLK_STATUS_WRERR = true ∧ rdWord t 0x2018 = rdWord s 0x2018 ∧ OnlyRegs [CLK_STATUS_WRERR.addr] s t)))

/-- TIM_SET.GO steps Timecount to the value of TIM_SET while the converter is DORMANT and the source is not PTP; the tick
number and the newest mark follow, and STEPPED shows it (R92). TIM_LATCH captures Timecount and the tick number (R506).
SYNC_IN (R77 to R79, R93): in MONITOR an edge is timestamped and its distance from the nearest second shown, and in PPS mode
measured by the servo; in ALIGN, while DORMANT, it places the sub-second part of Timecount and returns the mode to MONITOR;
when OFF it is ignored. In PPS mode the loss of the edges for 1.5 s puts a servo that follows into HOLDOVER and raises
PTP_LOSS. A time-trigger unit whose target has come fires (R97, R98): FIRED shows it; without a period it is disarmed, with
one it stays armed and its target moves on by the period; it asks for the start of its task at the next mark, or arms its
Ledger unit. The model's own part: log entries 4, 16, 65. -/
def Obligations.TimecountAndTriggers : Prop :=
  (∀ (v : Word) (s : State),
     (Writable 0x302C s → v.getLsbD 0 = true → s.conv = .dormant → rd s TIM_CFG_SRC ≠ 1 → Completes (.timSetGo v) s (fun t =>
       let now := rd s TIM_SET_LO_T + 2 ^ 32 * rd s TIM_SET_HI_T
       t.time = now ∧ t.tick = tickAt s now ∧ t.markAt = now - now % tickLen s ∧ rdB t TIM_STATUS_STEPPED = true ∧
         t.conv = s.conv ∧ t.cells = s.cells ∧ KeepsRegs (fun a => a == TIM_STATUS_STEPPED.addr) s t)) ∧
     (Writable 0x302C s → v.getLsbD 0 = true → s.conv ≠ .dormant ∨ rd s TIM_CFG_SRC = 1 → Completes (.timSetGo v) s (fun t =>
       rdB t TIM_STATUS_WRERR = true ∧ OnlyRegs [TIM_STATUS_WRERR.addr] s t)) ∧
     (Writable 0x3010 s → Completes (.timLatch v) s (fun t =>
       rd t TIM_SNAP_LO_T = s.time % 2 ^ 32 ∧ rd t TIM_SNAP_HI_T = s.time / 2 ^ 32 % 2 ^ 32 ∧
         rd t TIM_SNAP_TICK_TICK = (tickAt s s.time).toNat ∧ rd t TIM_SNAP_FRAC_FRAC = 0 ∧
         OnlyRegs [TIM_LATCH_LSEQ.addr, TIM_SNAP_LO_T.addr, TIM_SNAP_HI_T.addr, TIM_SNAP_FRAC_FRAC.addr, TIM_SNAP_TICK_TICK.addr] s t))) ∧
  (∀ s : State, Live s →
     (rd s CLK_SYNC_MODE = 0 → Completes .syncInEdge s (Unchanged s)) ∧
     (rd s CLK_SYNC_MODE = 1 → Completes .syncInEdge s (fun t =>
       let at_ := 64 * s.time + Config.freeValue s.freeCount % 64
       let r := at_ % 64000000000
       let e := roundAway (((if r < 32000000000 then r else (r : Int) - 64000000000 : Int) : Rat) / 64)
       t.servo.lastEdge = some at_ ∧ rd t CLK_SYNC_ERR_ERR = (e % (2 ^ 32 : Nat)).toNat ∧
         (rd s TIM_CFG_SRC ≠ 2 → OnlyRegs [CLK_SYNC_ERR_ERR.addr] { s with servo := t.servo, freeCount := t.freeCount } t) ∧
         (rd s TIM_CFG_SRC = 2 → t.servo.offset = some e ∧ (rd t TIM_STATUS_TSTATE = 1 ∨ rd t TIM_STATUS_TSTATE = 2)) ∧
         t.time = s.time ∧ t.tick = s.tick ∧ t.conv = s.conv ∧ t.cells = s.cells)) ∧
     (rd s CLK_SYNC_MODE = 2 → s.conv = .dormant → Completes .syncInEdge s (fun t =>
       t.time = s.time + 80 - (s.time + 80) % 1000000000 + rd s CLK_SYNC_SYNC_OFS + 80 ∧ rd t CLK_SYNC_MODE = 1 ∧
         rd t CLK_SYNC_SYNC_OFS = rd s CLK_SYNC_SYNC_OFS ∧ t.tick = tickAt s t.time ∧ t.conv = s.conv ∧
         KeepsRegs (fun a => a == 0x2018) s t)) ∧
     (∀ e, s.servo.lastEdge = some e → rd s TIM_CFG_SRC = 2 → rd s TIM_STATUS_TSTATE = 1 ∨ rd s TIM_STATUS_TSTATE = 2 →
       Completes .ppsLoss s (fun t =>
         t.time = max s.time (e / 64 + 1500000000) ∧ rd t TIM_STATUS_TSTATE = 3 ∧ Raised .ptpLoss s t ∧
           active t (srcBit .ptpLoss) = true ∧ t.conv = s.conv ∧ KeepsCells s t))) ∧
  (∀ (n : Fin 16) (s : State), Live s → trigArmed s n = true →
     (rdB s (TIM_TRIG_CTRL_TICKREF n) = true → trigReached s n s.time = true) →
     Completes (.timeTriggerFire n) s (fun t =>
       rdB t (TIM_TRIG_STAT_FIRED n) = true ∧
         (s.clk.late.getLsbD n = true → rdB t (TIM_TRIG_STAT_LATE n) = true) ∧
         (rdB s (TIM_TRIG_CTRL_TICKREF n) = false → trigReached s n s.time = true → t.time = s.time) ∧
         (rdB s (TIM_TRIG_CTRL_TICKREF n) = false → trigReached s n s.time = false →
           BitVec.ofNat 64 t.time = BitVec.ofNat 64 (trigTarget s n) ∧ s.time ≤ t.time) ∧
         (rd s (TIM_TRIG_CTRL_ACTION n) = 1 →
           t.clk.trigTasks = s.clk.trigTasks ++ [rd s (TIM_TRIG_CTRL_TARGET n)] ∧ t.sent = []) ∧
         (rd s (TIM_TRIG_CTRL_ACTION n) = 3 → rd s (TIM_TRIG_CTRL_TARGET n) < 32 →
           (trig t (rd s (TIM_TRIG_CTRL_TARGET n))).armed = true) ∧
         (rd s (TIM_TRIG_PERIOD_P n) = 0 → rdB t (TIM_TRIG_CTRL_ARM n) = false) ∧
         (rd s (TIM_TRIG_PERIOD_P n) ≠ 0 → rdB t (TIM_TRIG_CTRL_ARM n) = true) ∧
         (rd s (TIM_TRIG_PERIOD_P n) ≠ 0 → s.clk.passed.getLsbD n = false →
           (rdB s (TIM_TRIG_CTRL_TICKREF n) = false → trigTarget t n = (trigTarget s n + rd s (TIM_TRIG_PERIOD_P n)) % 2 ^ 64) ∧
           (rdB s (TIM_TRIG_CTRL_TICKREF n) = true →
             rd t (TIM_TRIG_TGT_LO_T n) = (rd s (TIM_TRIG_TGT_LO_T n) + rd s (TIM_TRIG_PERIOD_P n)) % 2 ^ 32)) ∧
         t.conv = s.conv ∧ t.cells = s.cells))

/-! The tick engine's registers (chapter 02) and debug (chapter 23). -/

/-- A write to TCK_CFG. MODE 3 or MISS_LIMIT 0 is refused with REASON 7 (R3, R68). One that keeps the code of the lane mode
takes MISS_LIMIT, and in DORMANT loads the mode's defaults too. A change of lane mode is refused outside DORMANT with REASON
1, where the variant lacks the mode with 2, and where an assigned cell stands at a slot the mode lacks with 3 (R16, R68).
Otherwise (R17, R45) MODE, LAUNCH and MAXFLIGHT take the mode's values, and every assigned cell is to be ranged afresh:
RVOID is 1, its ranging values are 0, and a cell that is AVAILABLE, REFRESHING or MISSING, and no other, is due to become
UNRANGED. LAUNCH and MAXFLIGHT are written only where the launch check holds with the other one as it stands, a launch point
not before the mode's earliest, and MAXFLIGHT not below the flight of a ranged cell (R44, R46); a write that fails is
refused with REASON 4, 5 or 6 and leaves the register. The default values pass the check in every mode (R45). The model's
own part: log entries 57, 58. -/
def Obligations.LaneModeAndLaunchCheck : Prop :=
  (∀ (v : Word) (s : State), Writable 0x4000 s →
     let code := v.toNat % 4
     let miss := v.toNat / 4 % 4
     let m := modeOf code
     let refused := fun (n : Nat) (t : State) =>
       rdB t TCK_CHECK_REJ = true ∧ rd t TCK_CHECK_REASON = n ∧ OnlyRegs [TCK_CHECK_REJ.addr] s t
     let defaults := fun (t : State) =>
       rd t TCK_LAUNCH_LAUNCH = defaultLaunch m ∧ rd t TCK_MAXFLIGHT_MAXFLIGHT = defaultFlight m
     (code = 3 ∨ miss = 0 → Completes (.tckCfgWrite v) s (refused 7)) ∧
     (code ≠ 3 → miss ≠ 0 → code = rd s TCK_CFG_MODE → Completes (.tckCfgWrite v) s (fun t =>
       rd t TCK_CFG_MISS_LIMIT = miss ∧ rd t TCK_CFG_MODE = code ∧
         (s.conv ≠ .dormant → OnlyRegs [0x4000] s t) ∧
         (s.conv = .dormant → defaults t ∧ OnlyRegs [0x4000, 0x4004, 0x4008] s t))) ∧
     (code ≠ 3 → miss ≠ 0 → code ≠ rd s TCK_CFG_MODE →
       (s.conv ≠ .dormant → Completes (.tckCfgWrite v) s (refused 1)) ∧
       (s.conv = .dormant → m = .deep → lacksDeep s = true → Completes (.tckCfgWrite v) s (refused 2)) ∧
       (s.conv = .dormant → (m = .deep → lacksDeep s = false) → slotLacking m s = true → Completes (.tckCfgWrite v) s (refused 3)) ∧
       (s.conv = .dormant → (m = .deep → lacksDeep s = false) → slotLacking m s = false → Completes (.tckCfgWrite v) s (fun t =>
         rd t TCK_CFG_MODE = code ∧ rd t TCK_CFG_MISS_LIMIT = miss ∧ defaults t ∧
           (∀ a, (cell s a).ent.avail ≠ .empty → (cell t a).ranged = false ∧
             (cell t a).ent = { (cell s a).ent with rvoid := true, txOffset := 0, dsDelay := 0, rangeTick := 0 }) ∧
           (∀ a, (cell s a).ent.avail = .empty → cell t a = cell s a) ∧
           t.avails = s.avails ++
             (s.cells.filter fun c => c.2.ent.avail ∈ [Avail.available, .refreshing, .missing]).map
               (fun c => { addr := BitVec.ofNat 13 c.1, target := .unranged }) ∧
           t.conv = .dormant ∧ t.tabs = s.tabs ∧ t.clk = s.clk)))) ∧
  ((∀ m : LaneMode, launchFits m (defaultLaunch m) (defaultFlight m) = true ∧ earliestLaunch m ≤ defaultLaunch m) ∧
   ∀ (v : Word) (s : State),
     let m := laneMode s
     let launch := v.toNat % 2 ^ 14
     let flight := v.toNat % 2 ^ 12
     let fits := fun (l f : Nat) => l + frameLen m + f ≤ tickSyms m false - 32
     let refused := fun (n : Nat) (t : State) =>
       rdB t TCK_CHECK_REJ = true ∧ rd t TCK_CHECK_REASON = n ∧ OnlyRegs [TCK_CHECK_REJ.addr] s t
     (Writable 0x4004 s → fits launch (rd s TCK_MAXFLIGHT_MAXFLIGHT) →
       (earliestLaunch m ≤ launch → Completes (.tckLaunchWrite v) s (fun t => rd t TCK_LAUNCH_LAUNCH = launch ∧ OnlyRegs [0x4004] s t)) ∧
       (launch < earliestLaunch m → Completes (.tckLaunchWrite v) s (refused 5))) ∧
     (Writable 0x4004 s → ¬ fits launch (rd s TCK_MAXFLIGHT_MAXFLIGHT) → Completes (.tckLaunchWrite v) s (refused 4)) ∧
     (Writable 0x4008 s → fits (rd s TCK_LAUNCH_LAUNCH) flight →
       (largestFlight s ≤ flight → Completes (.tckMaxflightWrite v) s (fun t =>
         rd t TCK_MAXFLIGHT_MAXFLIGHT = flight ∧ OnlyRegs [0x4008] s t)) ∧
       (flight < largestFlight s → Completes (.tckMaxflightWrite v) s (refused 6))) ∧
     (Writable 0x4008 s → ¬ fits (rd s TCK_LAUNCH_LAUNCH) flight → Completes (.tckMaxflightWrite v) s (refused 4)))

/-- TCK_COMMIT.GO names the first mark whose fence it clears (R58, R59); a second request while one is pending has no effect
(R585). TCK_FREEZE is taken where debug may halt, lifted at any time, and refused with its reason otherwise (R65, R67). A
halt request halts exactly the executors it names that are usable, where debug may halt (R65, R590); with debug refused it
halts none. A resume releases exactly the executors it names (R589). -/
def Obligations.CommitFreezeDebug : Prop :=
  (∀ (v : Word) (s : State),
     (Writable 0x4024 s → v.getLsbD 0 = true → rdB s TCK_COMMIT_GO = false → Completes (.tckCommitGo v) s (fun t =>
       t.commitAt = some (if s.time + 16 < nextMark s then s.tick + 1 else s.tick + 2) ∧ rdB t TCK_COMMIT_GO = true ∧
         (∀ a, a ≠ 0x4024 → rdWord t a = rdWord s a) ∧
         t = { s with sent := [], regs := t.regs, commitAt := t.commitAt })) ∧
     (Writable 0x4024 s → rdB s TCK_COMMIT_GO = true → Completes (.tckCommitGo v) s (Unchanged s)) ∧
     (Writable 0x4028 s → v.getLsbD 0 = true → s.freeze = false → debugBar s = 0 → Completes (.tckFreezeWrite v) s (fun t =>
       t.freeze = true ∧ rdB t TCK_FREEZE_FREEZE = true ∧ (∀ a, a ≠ 0x4028 → rdWord t a = rdWord s a) ∧
         t = { s with sent := [], regs := t.regs, freeze := true })) ∧
     (Writable 0x4028 s → v.getLsbD 0 = false → Completes (.tckFreezeWrite v) s (fun t =>
       t.freeze = false ∧ rdB t TCK_FREEZE_FREEZE = false ∧ (∀ a, a ≠ 0x4028 → rdWord t a = rdWord s a) ∧
         t = { s with sent := [], regs := t.regs, freeze := false })) ∧
     (Writable 0x4028 s → v.getLsbD 0 = true → s.freeze = false → debugBar s ≠ 0 → Completes (.tckFreezeWrite v) s (fun t =>
       rdB t DBG_STATUS_REFUSED = true ∧ t.freeze = false ∧ rdWord t 0x4028 = rdWord s 0x4028))) ∧
  (∀ (jtag : Bool) (v : Word) (s : State),
     ((if jtag then Live s else Writable 0x90000 s) → debugBar s = 0 → Completes (.dbgHalt jtag v) s (fun t =>
       (∀ e, e < 16 → t.bench.halted.getLsbD e = (s.bench.halted.getLsbD e || (v.getLsbD e && execUsable s e))) ∧
         t.freeze = s.freeze ∧ t.conv = s.conv ∧ t.cells = s.cells ∧ t.fmn = s.fmn)) ∧
     ((if jtag then Live s else Writable 0x90000 s) → debugBar s ≠ 0 → Completes (.dbgHalt jtag v) s (fun t =>
       t.bench = s.bench ∧ t.conv = s.conv ∧ t.cells = s.cells ∧
         ((∃ e, e < 16 ∧ v.getLsbD e = true ∧ s.bench.halted.getLsbD e = false) → rdB t DBG_STATUS_REFUSED = true))) ∧
     (Writable 0x90004 s → Completes (.dbgResume v) s (fun t =>
       (∀ e, e < 16 → t.bench.halted.getLsbD e = (s.bench.halted.getLsbD e && !v.getLsbD e)) ∧
         t = { s with sent := [], regs := t.regs, bench := { s.bench with halted := t.bench.halted } } ∧
         ∀ a, a ≠ 0x90000 → rdWord t a = rdWord s a)))

/-! Supplies, domains, feeds and resets (chapter 22). -/

/-- The supplies (R568): a rail beyond its warning window shows WARN, one beyond its fault window loses GOOD; each raises
SUPPLY, and neither changes the converter, the cells or the tables. The loss of VAON is the power-on reset. A supply reset
(R568) of a core-type rail, on a device that is not in RESET or FAILSTOP: the device is in RESET with its outputs off and
its lanes dark; the registers of GLB, PWR, PRT and FCL keep what they held but for the state of the rails and domains, and
everything else is as after reset. The retained fault bits stay. The two resets from outside (R413, R563, R567). PORST_N:
the device is in BOOT, or in RESET with TEST_EN, the straps are latched, the fault bits latched before stay and PRIOR is
set; all else is as after reset. The power-on reset clears the fault bits too. Neither touches fuses, flash or MRAM. The
model's own part: log entries 6, 49. -/
def Obligations.SuppliesAndResets : Prop :=
  (∀ (rail : Fin 10) (s : State), s.dev ≠ .failstop →
     Completes (.supplyWarn rail) s (fun t =>
       rdBit t PWR_RAILSTAT_WARN rail = true ∧ rdBit t PWR_RAILSTAT_GOOD rail = rdBit s PWR_RAILSTAT_GOOD rail ∧
         Raised .supply s t ∧ t.base = s.base ∧
         KeepsRegs (fun a => raiseReg a || a == PWR_RAILSTAT_WARN.addr || a == PWR_SUPPLY_CNT_COUNT.addr) s t) ∧
     (rail ≠ 2 → Completes (.supplyFault rail) s (fun t =>
       rdBit t PWR_RAILSTAT_GOOD rail = false ∧ Raised .supply s t ∧ t.base = s.base ∧
         KeepsRegs (fun a => raiseReg a || a == PWR_RAILSTAT_WARN.addr || a == PWR_SUPPLY_CNT_COUNT.addr) s t)) ∧
     (rail = 2 → Completes (.supplyFault rail) s (fun t => t.dev = .reset ∧ t.conv = .dormant ∧ t.lanesOn = false))) ∧
  (∀ (rail : Fin 10) (s : State), s.dev ≠ .reset → s.dev ≠ .failstop →
     (([0, 1, 3, 4, 8, 9] : List Nat).contains rail.val = false → Completes (.supplyReset rail) s (Unchanged s)) ∧
     (([0, 1, 3, 4, 8, 9] : List Nat).contains rail.val = true → Completes (.supplyReset rail) s (fun t =>
       t.dev = .reset ∧ t.conv = .dormant ∧ t.lanesOn = false ∧ OutputsOff t ∧ t.cells = [] ∧ t.accepted = [] ∧
         (∀ j, j < 47 → latched t j = latched s j) ∧ t.fcl.ring = s.fcl.ring ∧ tab t 0x09 0 = tab s 0x09 0 ∧
         rdBit t PWR_RAILSTAT_GOOD rail = false ∧ rd t TCK_CFG_MISS_LIMIT = rd State.reset TCK_CFG_MISS_LIMIT))) ∧
  (∀ (straps : BitVec 3) (s : State),
     Completes (.externalReset straps) s (fun t =>
       t.dev = (if straps.getLsbD 1 then .reset else .boot) ∧ t.conv = .dormant ∧ t.role = .solo ∧ t.lanesOn = false ∧
         OutputsOff t ∧ t.cells = [] ∧ t.tabs = [] ∧ rdB t FCL_STATUS_PRIOR = true ∧
         (∀ j, j < 47 → latched t j = latched s j) ∧ rdB t GLB_STRAP_DBG_EN = straps.getLsbD 0 ∧
         t.sec.floors = s.sec.floors ∧ t.sec.prog = s.sec.prog ∧ t.bench.mramA = s.bench.mramA) ∧
     Completes .pd0PowerOnReset s (fun t =>
       t.dev = .reset ∧ t.conv = .dormant ∧ t.role = .solo ∧ t.lanesOn = false ∧ OutputsOff t ∧ t.cells = [] ∧ t.tabs = [] ∧
         (∀ j, j < 47 → latched t j = false) ∧ t.sec.floors = s.sec.floors ∧ t.sec.prog = s.sec.prog ∧
         t.bench.mramA = s.bench.mramA))

/-- The domains (R571, R572): a domain that has not reported power-good within 1 ms of its request raises SUPPLY with its
number; PD12 goes off when flow 37 has been empty for 1 ms, and with work in the flow it stays on. A domain that reports
power-good (R570 to R572, R584) is no longer waited for, the writes held for it are applied and those for others stay held;
with none held it is on, the filter chains of PD2 are to reset, and the commands that waited for the DRAM of PD10 may start.
The model's own part: log entries 4, 49. -/
def Obligations.PowerDomains : Prop :=
  (∀ (d : Fin 13) (s : State), Live s →
     (khas s.pwr.request d = true → Completes (.domainPowerTimeout d) s (fun t =>
       Raised .supply s t ∧ t.time = max s.time (kget 0 s.pwr.request d + 1000000) ∧ t.conv = s.conv ∧ KeepsCells s t ∧
         KeepsRegs raiseReg s t)) ∧
     (s.dev ≠ .boot → domainOn s 12 = true → flowItems s 37 = 0 → Completes .pd12IdleOff s (fun t =>
       domainOn t 12 = false ∧ t.time = max s.time (s.sec.engineAt + 1000000) ∧
         (∀ k, k ≠ 12 → k < 13 → domainOn t k = domainOn s k) ∧ t.conv = s.conv ∧ t.cells = s.cells)) ∧
     (flowItems s 37 ≠ 0 → Completes .pd12IdleOff s (Unchanged s))) ∧
  (∀ (d : Fin 13) (s : State), Live s →
     (khas s.pwr.request d = true → Completes (.domainPowerGood d) s (fun t =>
       t.pwr.held = s.pwr.held.filter (fun x => domainOf x.1 != d.val) ∧
         ((∀ x ∈ s.pwr.held, domainOf x.1 ≠ d.val) →
           khas t.pwr.request d = false ∧ (d.val ≠ 4 → domainOn t d = true) ∧
             (d.val = 2 → ∀ c, c < 40 → (chain s c).running = true → (chain t c).resetReq = true) ∧
             (d.val = 10 → t.pwr.dramHeld = []) ∧ t.cells = s.cells ∧ t.conv = s.conv))) ∧
     (khas s.pwr.request d = false → Completes (.domainPowerGood d) s (Unchanged s)))

/-- The battery feeds (R574, R575): a change shows the feed's class by its nominal voltage, with the hysteresis, and raises
BATTERY where an enabled feed changes to a class other than GOOD; a feed that is not fit drives no switches; a feed that has
been fit since its qualification began drives them when it ends. The die temperature (R578): at 10 °C below TJMAX and above
the source is raised and active, and THERM_N is low from 10 °C above TJMAX on. The model's own part: log entries 4, 9, 49.
-/
def Obligations.FeedsAndTemperature : Prop :=
  (∀ (feedB : Bool) (mv : Int) (s : State) (b : BoardDesc), feedBoard s = some b →
     let n := bitNat feedB
     Completes (.feedStateChange feedB mv) s (fun t =>
       let new := feedClass (batt s n).state (b.vnom.getD n 0) mv
       (batt t n).state = new ∧ (batt t n).mv = mv ∧ (feedFit t n = false → (batt t n).polg = false) ∧
         (new ≠ (batt s n).state → new ≠ 3 → feedEn s n = true → s.dev ≠ .failstop → Raised .battery s t) ∧
         (new = (batt s n).state ∨ new = 3 ∨ feedEn s n = false → ∀ j, j < 47 → latched t j = latched s j) ∧
         t.conv = s.conv ∧ KeepsCells s t) ∧
     (∀ q, (batt s n).qualAt = some q → (batt s n).polg = false → feedFit s n = true →
       Completes (.polgQualified feedB) s (fun t =>
         (batt t n).polg = true ∧ (batt t n).qualAt = none ∧ t.time = max s.time (q + 10000000).toNat ∧
           (batt t (1 - n)) = batt s (1 - n) ∧ t.conv = s.conv ∧ t.cells = s.cells))) ∧
  (∀ (x : Int) (s : State), s.dev ≠ .failstop →
     Completes (.temperature x) s (fun t =>
       active t (srcBit .temperature) = decide (tjMax - 160 ≤ x) ∧ t.pwr.thermN = decide (x < tjMax + 160) ∧
         (s.pwr.tempOver = 0 → tjMax - 160 ≤ x → latched t (srcBit .temperature) = true) ∧
         (x < tjMax - 160 → ∀ j, j < 47 → latched t j = latched s j) ∧ t.conv = s.conv ∧ KeepsCells s t))

/-! Protection and safety (chapter 12). -/

/-- A filtered channel of a safety input (R349 to R352): an enabled input shows demand exactly by its filtered channels and
its discrepancy, and one that is not enabled shows none. A demand it shows is latched; one that was not de-energises the
outputs whose MASK names it, and with TRIPCONV trips the converter of a device that commands the cells. An enabled input
inconsistent for DISC raises SAFE_IN_DISCREPANCY, stays in demand, and its demand is latched (R351, R352). The model's own
part: log entry 4. -/
def Obligations.SafetyInputs : Prop :=
  (∀ (n : Fin 8) (chB level : Bool) (s : State), Live s →
     Completes (.safetyInputFiltered n chB level) s (fun t =>
       let demand := fldB (prt s) (128 + 8 * n) 0 &&
         (inDemand (fldB (prt s) (128 + 8 * n) 1) (sin_ t n).filtA (sin_ t n).filtB || (sin_ t n).disc)
       (sin_ t n).filtA = (if chB then (sin_ s n).filtA else level) ∧ (sin_ t n).filtB = (if chB then level else (sin_ s n).filtB) ∧
         rdBit t PRT_DEMAND_SI_NOW n = demand ∧
         (∀ k, k < 8 → rdBit t PRT_DEMAND_SI_LAT k = (rdBit s PRT_DEMAND_SI_LAT k || (decide (k = n.val) && demand))) ∧
         (demand = true → rdBit s PRT_DEMAND_SI_LAT n = false →
           (∀ k, k < 4 → (fld (prt s) (194 + 16 * k) 0 16).testBit n = true → (sout t k).energised = false) ∧
           (fldB (prt s) (128 + 8 * n) 2 = true → s.conv ≠ .dormant → s.role = .solo ∨ s.role = .active → t.fcl.toTrip = true)) ∧
         t.conv = s.conv ∧ KeepsCells s t ∧ t.tabs = s.tabs)) ∧
  (∀ (n : Fin 8) (s : State) (since : Nat), Live s → (sin_ s n).incSince = some since → (sin_ s n).incDone = false →
     fldB (prt s) (128 + 8 * n) 0 = true →
     Completes (.safeInDiscrepancy n) s (fun t =>
       (sin_ t n).disc = true ∧ rdBit t PRT_DEMAND_SI_NOW n = true ∧ rdBit t PRT_DEMAND_SI_LAT n = true ∧
         Raised .safeInDiscrepancy s t ∧ t.time = max s.time (since + fld (prt s) (130 + 8 * n) 0 16 * 1000000) ∧
         t.conv = s.conv ∧ KeepsCells s t))

/-- The tests of a safety output (R354). While an output with TP_EN is ON a channel is driven low in its turn and returns
after TP_WIDTH, and TPRUN shows the pulse; one whose readback does not follow, and a readback that differs outside a pulse,
puts the output into FAULT, de-energised, and raises SAFE_OUT_TEST; the pulsed channel's own readback is no mismatch. The
feedback of a safety output (R355): in PICKUP an open feedback makes it ON and in DROPOUT a closed one OFF; without feedback
the contacts change no state; a timer of the feedback that ends puts the output into FAULT with its cause and raises
CONTACTOR_FB. The model's own part: log entries 4, 35, 71. -/
def Obligations.SafetyOutputs : Prop :=
  (∀ (k : Fin 4) (s : State), Live s →
     let test := (sout s k).fb = .on ∧ (sout s k).energised = true ∧ fldB (prt s) (192 + 16 * k) 1 = true
     let faulted := fun (t : State) => (sout t k).fb = .fault ∧ (sout t k).energised = false ∧ rd t (PRT_SOSTAT_FREASON k) = 1 ∧
       latched t (srcBit .safeOutTest) = true ∧ t.conv = s.conv ∧ KeepsCells s t
     (∀ fellA retA fellB retB, test → (sout s k).pulse = none →
       let chB := (sout s k).tpAt.isSome && !(sout s k).tpB
       (if chB then fellB else fellA) = true → Completes (.testPulse k fellA retA fellB retB) s (fun t =>
       (sout t k).pulse = some chB ∧ (sout t k).fb = .on ∧ (sout t k).energised = true ∧ rdB t (PRT_SOSTAT_TPRUN k) = true ∧
         rdB t (PRT_SOSTAT_CHA k) = chB ∧ rdB t (PRT_SOSTAT_CHB k) = !chB ∧
         t.time = max s.time (match (sout s k).tpAt with
           | none => (sout s k).since + fld (prt s) (198 + 16 * k) 0 16 * 1000000
           | some x => x + fld (prt s) (198 + 16 * k) 0 16 * 1000000 / 2) ∧
         OnlyRegs [(PRT_SOSTAT_TPRUN k).addr] { s with prot := t.prot, time := t.time } t)) ∧
     (∀ b fellA retA fellB retB, test → (sout s k).pulse = some b → (if b then retB else retA) = true →
       Completes (.testPulse k fellA retA fellB retB) s (fun t =>
       sout t k = { sout s k with pulse := none } ∧ rdB t (PRT_SOSTAT_TPRUN k) = false ∧
         rdB t (PRT_SOSTAT_CHA k) = true ∧ rdB t (PRT_SOSTAT_CHB k) = true ∧
         t.time = max s.time ((sout s k).tpAt.getD 0 + fld (prt s) (196 + 16 * k) 0 16 * 1000) ∧
         OnlyRegs [(PRT_SOSTAT_TPRUN k).addr] { s with prot := t.prot, time := t.time } t)) ∧
     (test → Completes (.testPulse k false false false false) s faulted) ∧
     (∀ chB : Bool, (sout s k).fb ≠ .fault → (sout s k).pulse ≠ some chB → Completes (.safeOutReadbackMismatch k chB) s (fun t =>
       faulted t ∧ rdB t (if chB then PRT_SOSTAT_CHB k else PRT_SOSTAT_CHA k) = !(sout s k).energised)) ∧
     (∀ chB : Bool, (sout s k).pulse = some chB → Completes (.safeOutReadbackMismatch k chB) s (Unchanged s))) ∧
  (∀ (k : Fin 4) (a b : Bool) (s : State), Live s →
     let inv := fldB (prt s) (192 + 16 * k) 3
     Completes (.feedbackChange k a b) s (fun t =>
       (sout t k).fbA = a ∧ (sout t k).fbB = b ∧ (sout t k).energised = (sout s k).energised ∧
         rdB t (PRT_SOSTAT_FBA k) = a ∧ rdB t (PRT_SOSTAT_FBB k) = b ∧
         (fbEn s k = false → (sout t k).fb = (sout s k).fb) ∧
         (fbEn s k = true → (sout s k).fb = .pickup → (a == inv && b == inv) = true → (sout t k).fb = .on) ∧
         (fbEn s k = true → (sout s k).fb = .dropout → (a != inv && b != inv) = true → (sout t k).fb = .off) ∧
         (∀ m, m < 4 → m ≠ k.val → sout t m = sout s m) ∧ t.conv = s.conv ∧ t.cells = s.cells ∧ t.sent = []) ∧
     (∀ x, fbEn s k = true → fbTimer (prt s) k (sout s k) = some x → Completes (.feedbackTimerExpiry k) s (fun t =>
       (sout t k).fb = .fault ∧ (sout t k).energised = false ∧ rd t (PRT_SOSTAT_FREASON k) = x.2 ∧
         Raised .contactorFb s t ∧ t.time = max s.time x.1 ∧ t.conv = s.conv ∧ KeepsCells s t)))

/-- The safety reset's sequence (R363): on a device that commands the cells the first key starts it, the second within 1 ms
completes it for the next mark, any other value breaks it, and the second key too late or alone, or its absence for 1 ms, is
FAILED with REASON 6. The model's own part: log entries 4, 35. -/
def Obligations.SafetyResetSequence : Prop :=
  ∀ (v : Word) (s : State),
    (Writable 0x48004 s → s.dev = .setup ∨ s.dev = .run → s.role = .solo ∨ s.role = .active →
      (v.toNat % 65536 = 0xA55A → Completes (.prtResetWrite v) s (fun t =>
        t = { s with sent := [], prot := { s.prot with key1 := some s.time } })) ∧
      (∀ k, v.toNat % 65536 = 0x5AA5 → s.prot.key1 = some k → s.time ≤ k + 1000000 → Completes (.prtResetWrite v) s (fun t =>
        t = { s with sent := [], prot := { s.prot with key1 := none, resetAt := true } })) ∧
      (v.toNat % 65536 = 0x5AA5 → (∀ k, s.prot.key1 = some k → k + 1000000 < s.time) → Completes (.prtResetWrite v) s (fun t =>
        rdB t PRT_RSTSTAT_FAILED = true ∧ rd t PRT_RSTSTAT_REASON = 6 ∧ t.prot.resetAt = s.prot.resetAt ∧
          KeepsRegs (fun a => a == PRT_RSTSTAT_FAILED.addr) s t ∧ t.conv = s.conv)) ∧
      (v.toNat % 65536 ≠ 0xA55A → v.toNat % 65536 ≠ 0x5AA5 → Completes (.prtResetWrite v) s (fun t =>
        t = { s with sent := [], prot := { s.prot with key1 := none } }))) ∧
    (∀ k, Live s → s.prot.key1 = some k → Completes .safetyResetTimeout s (fun t =>
      rdB t PRT_RSTSTAT_FAILED = true ∧ rd t PRT_RSTSTAT_REASON = 6 ∧ t.prot.key1 = none ∧ t.time = max s.time (k + 1000000) ∧
        KeepsRegs (fun a => a == PRT_RSTSTAT_FAILED.addr) s t ∧ t.conv = s.conv))

/-- The timers of a receive connection (R359, R360): the oldest copy without a partner is discarded and counted; no accepted
telegram for WDT puts the connection in demand and raises SAFE_TELEGRAM; no valid copy on a port for LANWAIT marks that port
down. The model's own part: log entry 4. -/
def Obligations.TelegramTimers : Prop :=
  ∀ (c : Fin 8) (s : State), Live s →
    (∀ x r, (rxc s c).copies = x :: r → Completes (.telegramPartnerTimeout c) s (fun t =>
      (rxc t c).copies = r ∧ t.time = max s.time (x.at_ + 100000) ∧
        rdWord t PRT_ONECOPY_CNT_COUNT.addr = rdWord (count PRT_ONECOPY_CNT_COUNT s) PRT_ONECOPY_CNT_COUNT.addr ∧
        KeepsRegs (fun a => a == PRT_ONECOPY_CNT_COUNT.addr) s t ∧ t.conv = s.conv ∧ t.sent = [])) ∧
    (fldB (rxEntry (prt s) c) 12 0 = true → (rxc s c).timedOut = false → Completes (.telegramWdtTimeout c) s (fun t =>
      rdBit t PRT_DEMAND_RX_NOW c = true ∧ rdBit t PRT_DEMAND_RX_LAT c = true ∧ Raised .safeTelegram s t ∧
        (rxc t c).timedOut = true ∧ (rxc t c).lastSeq = none ∧ t.conv = s.conv ∧ KeepsCells s t ∧
        t.time = max s.time ((rxc s c).lastAcc + fld (rxEntry (prt s) c) 14 0 16 * 10000))) ∧
    (∀ (port : Fin 2) (k : Nat), (if port = 0 then (rxc s c).lastCopy0 else (rxc s c).lastCopy1) = some k →
      rdB s (if port = 0 then PRT_RXSTAT_PORT0_UP c else PRT_RXSTAT_PORT1_UP c) = true →
      Completes (.telegramPortDown c port) s (fun t =>
        rdB t (if port = 0 then PRT_RXSTAT_PORT0_UP c else PRT_RXSTAT_PORT1_UP c) = false ∧
          t.time = max s.time (k + fld (rxEntry (prt s) c) 18 0 16 * 1000000) ∧ t.prot = s.prot ∧ t.conv = s.conv ∧
          KeepsRegs (fun a => a == (PRT_RXSTAT_PORT0_UP c).addr) s t))

/-! Duplex operation (chapter 13). -/

/-- GRANT (R372, R374, R375, R392, R394). Before RUN a rise is taken as a level only; in RUN it makes a STANDBY or RESYNC
device ACTIVE, and one that is not qualified while the converter is not DORMANT raises DPX_LINK. A fall darkens both lane
groups at once; on a device that has released its lasers for a switch-over it completes it and sends the device to RESYNC;
otherwise the 1 µs of GRANT_LOST begins, after which an ACTIVE device is in RESYNC with REFEREE raised. A pulse that is over
within 1 µs raises REFEREE and changes no role (R375). A planned release (R392): with the frame for the switch mark's window
decided, the active device releases its lasers, both lane groups go dark and a heartbeat of KIND 2 with RELEASE leaves
(R377). The model's own part: log entries 4, 37. -/
def Obligations.GrantAndRelease : Prop :=
  (∀ s : State, Live s →
     let dark := fun (t : State) => t.pin.txdisG0 = true ∧ t.pin.txdisG1 = true ∧ t.pin.grantEcho = false
     (s.dpx.grant = false → s.dev ≠ .run → Completes .grantRise s (fun t =>
       t.dpx.grant = true ∧ t.role = s.role ∧ t.dev = s.dev ∧ t.conv = s.conv ∧ t.cells = s.cells ∧ t.sent = [] ∧ dark t)) ∧
     (s.dpx.grant = false → s.dev = .run → follows s = true → Completes .grantRise s (fun t =>
       t.dpx.grant = true ∧ t.role = .active ∧ t.dpx.grantLowAt = none ∧
         (s.conv ≠ .dormant → s.role = .resync ∨ rdB s DPX_STATUS_TAKEOVER_OK = false → latched t (srcBit .dpxLink) = true))) ∧
     (s.dpx.grant = true → s.role ≠ .active ∨ s.dpx.released = false → Completes .grantFall s (fun t =>
       t.dpx.grant = false ∧ t.dpx.grantLowAt = some s.time ∧ dark t ∧ t.role = s.role ∧ t.conv = s.conv ∧ t.cells = s.cells ∧
         t.sent = [])) ∧
     (s.dpx.grant = true → s.role = .active → s.dpx.released = true → Completes .grantFall s (fun t =>
       t.dpx.grant = false ∧ t.dpx.released = false ∧ t.role = .resync ∧ rd t DPX_STATUS_ROLE = 3 ∧ dark t ∧ t.conv = s.conv))) ∧
  (∀ s : State, Live s →
     (∀ k, s.dpx.grantLowAt = some k → s.role = .active → s.dpx.grant = false → s.dpx.released = false →
       Completes .grantLost s (fun t =>
         t.role = .resync ∧ latched t (srcBit .referee) = true ∧ t.pin.txdisG0 = true ∧ t.pin.txdisG1 = true ∧
           t.time = max s.time (k + 1000) ∧ t.conv = s.conv ∧ t.run = none ∧ rd t DPX_STATUS_ROLE = 3)) ∧
     (s.dev = .run → s.role = .solo ∨ s.role = .active → s.dpx.grant = true → Completes .grantGlitch s (fun t =>
       Raised .referee s t ∧ RaiseFrame s t ∧ t.role = s.role)) ∧
     (∀ k, s.dev = .run → s.role = .solo ∨ s.role = .active → s.dpx.grant = false → s.dpx.grantLowAt = some k → s.time < k + 1000 →
       Completes .grantGlitch s (fun t =>
         t.dpx.grant = true ∧ t.dpx.grantLowAt = none ∧ Raised .referee s t ∧ t.role = s.role ∧ t.conv = s.conv))) ∧
  (∀ (a : Accepted) (s : State), Live s → s.dev = .run → lineOn s 68 = true →
     (s.accepted.find? fun a => a.cmd.opc == .switchover && a.tick == s.tick + 1) = some a →
     s.role = .active → s.dpx.released = false → windowDecided s a.tick = true →
     Completes .plannedRelease s (fun t =>
       t.dpx.released = true ∧ t.pin.txdisG0 = true ∧ t.pin.txdisG1 = true ∧
         (∃ b, t.sent = [.heartbeat b] ∧ b.length = 16 ∧ fld b 0 0 8 = 0x21 ∧ fld b 1 0 8 = rd s DPX_CFG_UNIT ∧
           fld b 2 0 32 = s.tick.toNat ∧ fldB b 8 3 = true ∧ fld b 14 0 16 = crc crc16 (b.take 14)) ∧
         t.role = .active ∧ t.conv = s.conv ∧ t.accepted = s.accepted ∧ t.cells = s.cells))

/-- The referee lane (R377, R379): when YIELD is set an extra heartbeat of KIND 2 that shows it leaves, once. Bits on the
lane in which its receiver finds a status frame of 8 bytes with byte 0 0x31 and a good CRC restart the timer and give the
unit's bit of GRANT; bits that hold another frame or none leave the duplex state as it is. No frame for 2 ms and a GRANT
that differs from its bit for 10 µs each raise REFEREE once, and change no role. The model's own part: log entries 4, 37,
67. -/
def Obligations.RefereeLane : Prop :=
  ∀ s : State, Live s →
    (s.dev = .run → lineOn s 68 = true → yields s = true → s.dpx.yieldTold = false → Completes .extraHeartbeat s (fun t =>
      ∃ b, t = { s with sent := [.heartbeat b], dpx := { s.dpx with yieldTold := true } } ∧ b.length = 16 ∧ fld b 0 0 8 = 0x21 ∧
        fld b 1 0 8 = rd s DPX_CFG_UNIT ∧ fld b 2 0 32 = s.tick.toNat ∧ fld b 6 0 8 = 1 ∧ fldB b 8 2 = true ∧
        fldB b 8 0 = healthy s ∧ fld b 9 0 8 = rd s FCL_STATUS_MAXSEV ∧ fld b 14 0 16 = crc crc16 (b.take 14))) ∧
    (∀ f : RefFrame,
      let got := framed (pointRx 68 f.bits { s with sent := [] }).1
      let rest := fun (t : State) => t.role = s.role ∧ t.conv = s.conv ∧ t.cells = s.cells ∧ t.fcl = s.fcl
      (∀ b, got = some b → b.length = 8 → b.getD 0 0 = 0x31 → crc crc16 (b.take 6) = fld b 6 0 16 →
        Completes (.refereeStatusFrame f) s (fun t =>
          t.dpx.statusAt = s.time ∧ t.dpx.laneLate = false ∧
            t.dpx.statusGrant = some (fldB b 1 (rd s DPX_CFG_UNIT)) ∧
            (fldB b 1 (rd s DPX_CFG_UNIT) = s.dpx.grant → t.dpx.disSince = none) ∧
            (fldB b 1 (rd s DPX_CFG_UNIT) ≠ s.dpx.grant → t.dpx.disSince = some (s.dpx.disSince.getD s.time)) ∧ rest t)) ∧
      ((∀ b, got = some b → b.length ≠ 8 ∨ b.getD 0 0 ≠ 0x31 ∨ crc crc16 (b.take 6) ≠ fld b 6 0 16) →
        Completes (.refereeStatusFrame f) s (fun t => t.dpx = s.dpx ∧ rest t))) ∧
    (s.dev = .run → s.role ≠ .solo → s.dpx.laneLate = false → Completes .refereeLaneTimeout s (fun t =>
      Raised .referee s t ∧ t.dpx.laneLate = true ∧ t.time = max s.time (s.dpx.statusAt + 2000000) ∧ t.role = s.role ∧
        KeepsRegs raiseReg s t)) ∧
    (∀ k, s.dev = .run → s.dpx.disSince = some k → s.dpx.disDone = false → Completes .refereeDisagree s (fun t =>
      Raised .referee s t ∧ t.dpx.disDone = true ∧ t.time = max s.time (k + 10001) ∧ t.role = s.role ∧
        KeepsRegs raiseReg s t))

/-- The Dovetail link (R383, R394): coming up, with all four receivers locked, it shows DVL_UP and begins a fresh sequence;
its loss clears DVL_UP, raises DPX_LINK and marks a STANDBY device for RESYNC at the next mark. A device in RESYNC takes up
resynchronisation with the link, and leaves it with the link. Bits in which a lane's receiver finds a Dovetail segment
(R380, R381): one that is not the last of its record, in its turn and with a good CRC, moves the expected SSEQ on; the last
one completes its record (R382), here a STATUS, whose role and compatibility code are shown; one beyond a gap is held and
the missing values are asked for; one whose CRC fails for the first time is asked for again. With the link down nothing of
it is taken. The model's own part: log entries 4, 25, 38, 67. -/
def Obligations.DovetailTraffic : Prop :=
  (∀ s : State, Live s →
     (rdB s DPX_STATUS_DVL_UP = false → Completes .dovetailLinkUp s (fun t =>
       rdB t DPX_STATUS_DVL_UP = true ∧ (∀ k, k < 4 → rdB t (LNK_STATUS_RXLOCK (64 + k)) = true) ∧
         t.dpx.rxNext = none ∧ t.dpx.rxHeld = [] ∧ t.dpx.nakked = [] ∧ t.dpx.txKept = [] ∧
         t.role = s.role ∧ t.conv = s.conv ∧ (s.role = .resync → rd t DPX_STATUS_RSTEP = 1))) ∧
     (rdB s DPX_STATUS_DVL_UP = true → Completes .dovetailLinkLost s (fun t =>
       rdB t DPX_STATUS_DVL_UP = false ∧ (∀ k, k < 4 → rdB t (LNK_STATUS_RXLOCK (64 + k)) = (BitVec.ofNat 4 (Config.freeValue s.freeCount)).getLsbD k) ∧
         latched t (srcBit .dpxLink) = true ∧ t.dpx.toResync = (s.role == .standby) ∧
         t.role = s.role ∧ t.conv = s.conv ∧ (s.role = .resync → rd t DPX_STATUS_RSTEP = 0)))) ∧
  (∀ (k : Fin 4) (bits : List Bool) (r : DoveRec) (f : DoveFrame) (s : State), Live s →
     ((framed (pointRx (64 + k) bits { s with sent := [] }).1).bind fun b => segmentOf b r) = some f →
     let rest := fun (t : State) => t.role = s.role ∧ t.conv = s.conv ∧ t.cells = s.cells
     (rdB s DPX_STATUS_DVL_UP = true → s.dpx.rxNext = some f.sseq → s.dpx.rxHeld = [] → f.crcOk = true → f.last = false →
       Completes (.dovetailSegment { lane := k, bits := bits, holds := r }) s (fun t =>
         t.dpx.rxNext = some (f.sseq + 1) ∧ t.dpx.rxHeld = [] ∧ t.sent = [] ∧ rest t)) ∧
     (∀ role cur ok images compat, rdB s DPX_STATUS_DVL_UP = true → s.dpx.rxNext = some f.sseq → s.dpx.rxHeld = [] →
       f.crcOk = true → f.last = true → f.holds = .status role cur ok images compat → s.role = .standby →
       Completes (.dovetailSegment { lane := k, bits := bits, holds := r }) s (fun t =>
         t.dpx.rxNext = some (f.sseq + 1) ∧ t.dpx.pTakeover = ok ∧ rd t DPX_STATUS_PROLE = role.code ∧
           rd t DPX_COMPAT_PARTNER = compat.toNat ∧ rdB t DPX_STATUS_SKEW = (rd s DPX_COMPAT_OWN != compat.toNat) ∧ rest t)) ∧
     (∀ next, rdB s DPX_STATUS_DVL_UP = true → s.dpx.rxNext = some next → 0 < (f.sseq - next).toInt → s.dpx.rxHeld = [] →
       f.crcOk = true → Completes (.dovetailSegment { lane := k, bits := bits, holds := r }) s (fun t =>
         t.dpx.rxNext = some next ∧ t.dpx.rxHeld = [f] ∧ rest t ∧
           (s.dpx.nakked = [] → (next, s.tick) ∈ t.dpx.nakked ∧
             (lineOn s 64 = true → ∃ q b, .dove q (.nak (t.dpx.nakked.map (·.1))) b ∈ t.sent)))) ∧
     (rdB s DPX_STATUS_DVL_UP = true → s.dpx.rxNext = some f.sseq → s.dpx.rxHeld = [] → s.dpx.nakked = [] → f.crcOk = false →
       Completes (.dovetailSegment { lane := k, bits := bits, holds := r }) s (fun t =>
         t.dpx.rxNext = some f.sseq ∧ t.dpx.rxHeld = [] ∧ t.dpx.nakked = [(f.sseq, s.tick)] ∧ rest t)) ∧
     (rdB s DPX_STATUS_DVL_UP = false → Completes (.dovetailSegment { lane := k, bits := bits, holds := r }) s (fun t => t.dpx = s.dpx ∧ t.sent = [] ∧ rest t)))

/-! Marks, windows and phases (chapter 02). -/

/-- A mark (R36): its Timecount is that of the next mark, and its number counts tick lengths since Timecount 0. The mark is
made in SETUP and RUN on the PLL output (TICK_MARK), and in RUN it pulses TICK_OUT and sends a heartbeat on a referee lane
that runs (R377, R564); on the bypass clock it is made without being sent (TICK_MARK_NOT_SENT, R85). Here outside a change
of the numbering, with every command that was due done, no mirrored window, event or segment held back, and without a servo
that could step Timecount. The model's own part: log entries 18, 20. -/
def Obligations.MarksAreNumbered : Prop :=
  ∀ s : State, Live s → s.numChange = none → rd s TIM_CFG_SRC = 0 → dueCmds s = [] →
    s.dpx.closed = [] → s.dpx.events = [] → s.dpx.rxHeld = [] →
    let made := fun (t : State) => t.markAt = nextMark s ∧ t.tick = tickAt s (nextMark s) ∧ s.time ≤ t.time ∧ nextMark s ≤ t.time
    (marksRun s = true → Completes .tickMark s (fun t =>
      made t ∧ (s.dev = .run → .tickOut ∈ t.sent ∧ t.pin.hbOut = !s.pin.hbOut ∧
        (lineOn s 68 = true → ∃ b, .heartbeat b ∈ t.sent)))) ∧
    ((s.dev = .setup ∨ s.dev = .run) → rdB s CLK_STATUS_BYPASS = true → Completes .tickMarkNotSent s (fun t =>
      made t ∧ .tickOut ∉ t.sent ∧ t.pin.hbOut = s.pin.hbOut)) ∧
    (marksRun s = false → Completes .tickMark s (Unchanged s))

/-- The first mark of a new numbering (R64, R129, R131): at the switch mark of a rate change the rate changes and the mark
is numbered at the new tick length; a converter in WATCH leaves it on the way to full rate, and one in READY leaves it on
the way to Watch. At the first Watch mark after a lane start the converter is no longer DORMANT. The model's own part: log
entries 20, 22. -/
def Obligations.NumberingBegins : Prop :=
  ∀ (s : State) (n : NumChange), Live s → marksRun s = true → s.numChange = some n → n.switchAt = some (nextMark s) →
    rd s TIM_CFG_SRC = 0 → dueCmds s = [] → s.dpx.closed = [] → s.dpx.events = [] → s.dpx.rxHeld = [] →
    s.misses < rd s TCK_CFG_MISS_LIMIT →
    (n.kind = .rateToFull → Completes .switchMark s (fun t =>
      t.watch = false ∧ t.markAt = nextMark s ∧ t.tick = BitVec.ofNat 32 (nextMark s / tickNs s.clk.applied) ∧
        (s.conv = .watch → t.conv ≠ .watch))) ∧
    (n.kind = .rateToWatch → Completes .switchMark s (fun t =>
      t.watch = true ∧ t.markAt = nextMark s ∧ t.tick = BitVec.ofNat 32 (nextMark s / 100000) ∧
        (s.conv = .ready → t.conv ≠ .ready))) ∧
    (n.kind = .laneStart → s.litAt.isSome = true → Completes .watchMarkAfterLaneStart s (fun t =>
      t.watch = true ∧ t.litAt = none ∧ t.markAt = nextMark s ∧ t.tick = BitVec.ofNat 32 (nextMark s / 100000) ∧
        (s.conv = .dormant → t.conv ≠ .dormant)))

/-- The close of the upstream window (R34, R26): once per tick, at its instant, on a device that takes its own inputs.
Afterwards the record of every cell whose slot brought a NORMAL report shows what it reported, and that it came; and no
slot's burst is kept for a second close. A second close in the same tick changes nothing. Here with no compute phase still
running, every command that was due done, and no window of a takeover under R388. The model's own part: log entries 4, 24,
60. -/
def Obligations.UpstreamWindowCloses : Prop :=
  ∀ s : State, Live s → dueCmds s = [] →
    (marksRun s = true → s.closeDone ≠ some s.tick → s.dpx.closed = [] → waitsTickin s = false → s.run = none →
      s.dpx.unsentWins = [] → Completes .upstreamWindowClose s (fun t =>
        t.closeDone = some s.tick ∧ s.markAt + symNs s.watch (winClose (liveMode s) s.watch) ≤ t.time ∧ s.time ≤ t.time ∧
          t.tick = s.tick ∧ t.markAt = s.markAt ∧ t.conv = s.conv ∧ (∀ a, (cell t a).dyn.rx = .nothing) ∧
          (∀ x ∈ s.cells, (∀ y ∈ s.cells, y.1 = x.1 → y = x) → x.2.ent.avail ≠ .empty → ∀ p, x.2.dyn.rx = .report p →
            let r := (cell t x.1).live
            r.rptOk = true ∧ r.pred = false ∧ r.missCnt = 0 ∧ r.vcap.toNat = fld p 2 0 16 ∧ r.tmod = p.getD 6 0 ∧
              r.fault = p.getD 10 0 ∧ r.seq = p.getD 11 0 ∧ r.dtMeas = p.getD 16 0))) ∧
    (marksRun s = true → s.closeDone = some s.tick → Completes .upstreamWindowClose s (Unchanged s)) ∧
    (marksRun s = false → Completes .upstreamWindowClose s (Unchanged s))

/-- A compute phase ends (R48, R49, R51): its results are in force. In time, its frames wait for the launch point and
shedding ends; up to the slip limit the frames of its window leave at once on every lane that runs and has its traffic on
the line, with TICK_SLIP; later, or with its window lost, no frame leaves for the window, which counts among those without
one, and TICK_OVERRUN is raised. A late phase starts shedding. The model's own part: log entries 4, 23. -/
def Obligations.PhaseEnds : Prop :=
  ∀ (sym : Nat) (p : Phase) (s : State), Live s → dueCmds s = [] → s.run = some p → s.dpx.partner = [] →
    s.dpx.unsent = false →
    let e := max s.time (p.markAt + symNs p.watch sym)
    let l := p.markAt + p.tlen + symNs p.watch p.launch
    let lim := l + symNs p.watch (rd s TCK_SLIP_SLIP_EFF)
    let ended := fun (t : State) => t.time = e ∧ t.loopDone = slotOuts s
    (e ≤ l → p.lost = false → Completes (.computePhaseEnd sym) s (fun t =>
      ended t ∧ t.ready = s.ready ++ [p] ∧ t.sentWin = s.sentWin ∧ t.misses = s.misses ∧
        (follows s = false → t.shedding = false ∧ rdB t TCK_STATUS_SHED = false))) ∧
    (l < e → e ≤ lim → p.lost = false → follows s = false → s.dpx.notBefore ≤ e → Completes (.computePhaseEnd sym) s (fun t =>
      ended t ∧ t.ready = s.ready ∧ t.shedding = true ∧ rdB t TCK_STATUS_SHED = true ∧ t.sentWin = some p.window ∧
        t.misses = 0 ∧ latched t (srcBit .tickSlip) = true ∧
        (∀ k, k < 64 → laneRuns s k = true → lineOn s k = true →
          .frame k (laneFrame s (phaseHeader s p) p.slots p.mbx p.disc k) ∈ t.sent))) ∧
    (lim < e ∨ p.lost = true → follows s = false → Completes (.computePhaseEnd sym) s (fun t =>
      ended t ∧ t.ready = s.ready ∧ t.shedding = true ∧ rdB t TCK_STATUS_SHED = true ∧ t.sentWin = some p.window ∧
        t.misses = s.misses + 1 ∧ rd t TCK_STATUS_MISSRUN = min 3 (s.misses + 1) ∧ (∀ k b, .frame k b ∉ t.sent) ∧
        (s.misses + 1 ≠ rd s TCK_CFG_MISS_LIMIT ∨ s.missDone = true → latched t (srcBit .tickOverrun) = true)))

/-- The launch point (R43, R54): on a device that commands the cells the frames of the ended phase of its window, and no
others, leave on every lane that runs and has its traffic on the line, and the run of windows without a frame ends. A window
that had no phase, in a freeze or before a switch mark, gets a frame with FTYPE 3 that blocks every cell at its start (R63,
R67). Nothing leaves from dark lanes, in DORMANT, on the bypass clock, or for a window whose frame has left. Here with every
command that was due done and past the time that R388 keeps free. The model's own part: log entries 23, 59. -/
def Obligations.LaunchPointSends : Prop :=
  ∀ s : State, Live s → dueCmds s = [] →
    let w := s.tick + 1
    let may := s.lanesOn = true ∧ s.conv ≠ .dormant ∧ rdB s CLK_STATUS_BYPASS = false ∧ s.sentWin ≠ some w
    let left := fun (t : State) => t.sentWin = some w ∧ t.misses = 0 ∧ t.missDone = false ∧ rd t TCK_STATUS_MISSRUN = 0 ∧
      t.conv = s.conv ∧ t.tick = s.tick
    (∀ p, may → commands s = true → (s.ready.find? fun p => p.window == w) = some p →
      s.dpx.notBefore ≤ p.markAt + p.tlen + symNs p.watch p.launch →
      Completes .launchPoint s (fun t =>
        left t ∧ t.time = max s.time (p.markAt + p.tlen + symNs p.watch p.launch) ∧
          t.ready = s.ready.filter (fun q => q.window != w) ∧
          (∀ k b, .frame k b ∈ t.sent ↔ k < 64 ∧ laneRuns s k = true ∧ lineOn s k = true ∧
            b = laneFrame s (phaseHeader s p) p.slots p.mbx p.disc k))) ∧
    (may → commands s = true → (∀ p ∈ s.ready, p.window ≠ w) → (∀ p, s.run = some p → p.window ≠ w) →
      (∀ i ∈ s.waitIn, i.window ≠ w) → s.dpx.notBefore ≤ s.markAt + symNs s.watch (launchSym s) →
      Completes .launchPoint s (fun t =>
        left t ∧ (∀ k, k < 64 → laneRuns s k = true → lineOn s k = true → ∃ b, .frame k b ∈ t.sent ∧ fld b 0 0 8 = 3) ∧
          (∀ a, (cell s a).ent.avail ≠ .empty → (cell t a).dyn.endState = stBlock))) ∧
    (¬ may → Completes .launchPoint s (Unchanged s))

/-- A phase still running past the slip limit loses its window (R49), which is taken back on a device that commands the
cells (R53); the run of windows without a frame reaching MISS_LIMIT forces a BLOCK reaction whatever the severity of
TICK_OVERRUN, once (R54); a block set that is asked for is injected on lit lanes, unless one is being sent (R346).
MISS_LIMIT is 2 after reset, and is never 0. The model's own part: log entries 4, 23. -/
def Obligations.LostWindowsAndBlockSet : Prop :=
  (rd State.reset TCK_CFG_MISS_LIMIT = 2 ∧ ∀ (v : Word) (s : State), Writable 0x4000 s → v.toNat / 4 % 4 = 0 →
    Completes (.tckCfgWrite v) s (fun t => rd t TCK_CFG_MISS_LIMIT = rd s TCK_CFG_MISS_LIMIT)) ∧
  ∀ s : State, Live s →
    (∀ p, s.run = some p → p.window = s.tick + 1 → p.lost = false → Completes .slipLimitExpiry s (fun t =>
      t.run = some { p with lost := true, taken := p.taken || !follows s } ∧
        t.time = max s.time (p.markAt + p.tlen + symNs p.watch (p.launch + rd s TCK_SLIP_SLIP_EFF)) ∧ t.sent = [] ∧
        t.regs = s.regs ∧ t.conv = s.conv ∧ t.misses = s.misses ∧ t.ready = s.ready ∧
        (p.taken = true ∨ follows s = true → t.cells = s.cells ∧ t.arms = s.arms) ∧
        (p.taken = false → follows s = false → ∀ x ∈ p.back.cells, (cell s x.1).ent.serial = x.2.ent.serial →
          (∀ y ∈ p.back.cells, y.1 = x.1 → y = x) →
          (cell t x.1).dyn.endState = x.2.dyn.endState ∧ (cell t x.1).dyn.toggle = x.2.dyn.toggle))) ∧
    (s.missDone = false → rd s TCK_CFG_MISS_LIMIT ≤ s.misses → follows s = false → Completes .missLimitReached s (fun t =>
      t.missDone = true ∧ Raised .tickOverrun s t ∧ KeepsRegs raiseReg s t ∧ t.conv = s.conv ∧
        (s.conv ≠ .dormant → t.fcl.blockReq = true) ∧
        (s.conv ≠ .dormant → s.role = .solo ∨ s.role = .active → t.fcl.toBlock = true))) ∧
    (s.fcl.blockReq = true → Completes .blockSetRequest s (fun t =>
      t.fcl.blockReq = false ∧ (s.lanesOn = true → s.conv ≠ .dormant → setRuns s = false → .blockSet ∈ t.sent) ∧
        (s.lanesOn = false ∨ s.conv = .dormant ∨ setRuns s = true → t.sent = []) ∧ t.regs = s.regs ∧ t.conv = s.conv ∧
        t.cells = s.cells))

/-! Star lanes and cells (chapters 01, 04, 05). -/

/-- Availability by reports (R21, R333): three ticks without a report make an AVAILABLE or REFRESHING cell due to become
MISSING, with CELL_MISS raised; sixteen with one make a MISSING cell due to become AVAILABLE; a refresh that ends makes its
cell due to become AVAILABLE. The change itself is the next mark's. The model's own part: log entries 4, 28. -/
def Obligations.AvailabilityFallsDue : Prop :=
  ∀ (a : CellAddr) (s : State), Live s →
    (3 ≤ (cell s a.toNat).dyn.missRun → (cell s a.toNat).ent.avail = .available ∨ (cell s a.toNat).ent.avail = .refreshing →
      (s.avails.any fun x => x.addr.toNat == a.toNat && x.target == .missing) = false →
      Completes (.cellMiss a) s (fun t =>
        t.avails = s.avails ++ [{ addr := a, target := .missing }] ∧ Raised .cellMiss s t ∧ KeepsRegs raiseReg s t ∧
          (cell t a.toNat).ent = (cell s a.toNat).ent ∧ t.conv = s.conv)) ∧
    ((cell s a.toNat).ent.avail = .missing → 16 ≤ (cell s a.toNat).dyn.validRun → Completes (.missingCellRecovered a) s (fun t =>
      t = { s with sent := [], avails := s.avails ++ [{ addr := a, target := .available }] })) ∧
    (∀ e, (cell s a.toNat).dyn.refEnd = some e → (cell s a.toNat).ent.avail = .refreshing → tickGe s.tick (e - 2) = true →
      Completes (.refreshEnd a) s (fun t =>
        t = { s with sent := [], avails := s.avails ++ [{ addr := a, target := .available }] }))

/-- What a slot of the upstream window brings (R117, R118, R126, R150, R152), where the lane runs with its traffic on the
line and the receiver finds a burst. More than 4 symbols from nominal it is measured and discarded, not decoded. Decoded
with a bad BCRC outside a discovery window it is a missing report and raises CELL_CRC; a valid NORMAL report of the cell at
its address is the tick's report of that cell, and shows that the lane decodes. Dark lanes, slots the mode lacks, lanes in a
loop and slots without a burst take nothing. The model's own part: log entries 26, 67, 68. -/
def Obligations.BurstJudged : Prop :=
  ∀ (l : LaneIx) (slot : Fin 128) (b : Burst) (s : State), Live s →
    let a := l.val * 128 + slot.val
    let sym := if s.watch then 80 else 16
    let r := readBurst (lineBits s l b.bits)
    let runs := s.lanesOn = true ∧ laneRuns s l = true ∧ slot.val < slotsOf (liveMode s) ∧ rd s (LNK_CTRL_LOOP l) = 0
    let good := crc crc16 (leBytes 4 s.tick.toNat ++ r.payload.take 22) = fld r.payload 22 0 16
    (runs → rd s (LNK_CTRL_PATTERN l) = 0 → r.found = true →
      (4 * sym < b.arr.natAbs → Completes (.burstReceived l slot b) s (fun t =>
        (cell t a).dyn.rx = (if b.arr < 0 then .measured else (cell s a).dyn.rx) ∧ (cell t a).ent = (cell s a).ent ∧
          (lane t l).decoded = (lane s l).decoded ∧ t.conv = s.conv ∧
          rdWord t (LNK_DISCARD_CNT_COUNT l).addr = rdWord (if 0 < s.suppress then s else count (LNK_DISCARD_CNT_COUNT l) s)
            (LNK_DISCARD_CNT_COUNT l).addr ∧
          (∀ j, j < 47 → latched t j = latched s j) ∧ t.sent = [])) ∧
      (b.arr.natAbs ≤ 4 * sym → ¬ good → discWindow (lane s l) s.tick = none →
        Completes (.burstReceived l slot b) s (fun t =>
          (cell t a).dyn.rx = .invalid ∧ (lane t l).decoded = true ∧ Raised .cellCrc s t ∧ t.conv = s.conv)) ∧
      (b.arr.natAbs ≤ 4 * sym → good → fld r.payload 0 13 3 = 0 → fld r.payload 0 0 13 = a →
        (cell s a).ent.avail ≠ .empty → (cell s a).ent.avail ≠ .unranged ∨ (cell s a).dyn.confirm.isSome = true →
        Completes (.burstReceived l slot b) s (fun t =>
          (cell t a).dyn.rx = .report r.payload ∧ (lane t l).decoded = true ∧ t.conv = s.conv ∧
            (cell t a).ent.avail = (cell s a).ent.avail))) ∧
    (¬ runs → Completes (.burstReceived l slot b) s (Unchanged s)) ∧
    (runs → rd s (LNK_CTRL_PATTERN l) = 0 → r.found = false → Completes (.burstReceived l slot b) s (Unchanged s))

/-- Ranging of a cell (R164): CONFIRM consecutive valid, aligned reports clear RVOID, post RANGED and make the cell due to
become AVAILABLE unless it is FAULTED, BYPASSED or OUT_OF_SERVICE; 8 × CONFIRM ticks without them queue a PARK and post
CONFIRM_FAIL. No other cell changes. Tracking (R158): a full count starts afresh, and a mean error of half a symbol or more
moves the delays by half of it and queues a RANGE. The model's own part: log entries 4, 28, 61. -/
def Obligations.RangingAndTracking : Prop :=
  ∀ (a : CellAddr) (s : State), Live s →
    let n := a.toNat
    let c := cell s n
    let posted := fun (k : Nat) (t : State) => evQueue t 2 = evQueue s 2 ++ [{
      ecode := BitVec.ofNat 16 k, tick := s.tick, time := s.time,
      data := leBytes 2 n ++ leBytes 1 (n / 128) ++ leBytes 1 (n % 128) ++ leBytes 8 c.ent.serial.toNat }]
    (∀ k, c.dyn.confirm = some k → confirmNeed s ≤ k.run → Completes (.rangingComplete a) s (fun t =>
      (cell t n).ent = { c.ent with rvoid := false } ∧ (cell t n).dyn.confirm = none ∧ (∀ b, b ≠ n → cell t b = cell s b) ∧
        (c.ent.avail ∈ [Avail.faulted, .bypassed, .outOfService] → t.avails = s.avails) ∧
        (c.ent.avail ∉ [Avail.faulted, .bypassed, .outOfService] →
          t.avails = s.avails ++ [{ addr := a, target := .available }]) ∧
        posted 0x301 t ∧ t.regs = s.regs ∧ t.conv = s.conv ∧ t.sent = [])) ∧
    (∀ k, c.dyn.confirm = some k → k.run < confirmNeed s → 8 * confirmNeed s - 1 ≤ tickDiff s.tick k.apply →
      Completes (.confirmFail a) s (fun t =>
        (cell t n).ent = c.ent ∧ (cell t n).dyn.confirm = none ∧ (∀ b, b ≠ n → cell t b = cell s b) ∧ t.avails = s.avails ∧
          (commands s = true → (lane t (n / 128)).waiting =
            (lane s (n / 128)).waiting ++ [parkOp (leBytes 8 c.ent.serial.toNat) 0 true]) ∧
          (commands s = false → t.lanes = s.lanes) ∧
          posted 0x308 t ∧ t.regs = s.regs ∧ t.conv = s.conv ∧ t.sent = [])) ∧
    (c.ranged = true → 2 ^ (fld (rangingRec s) 2 0 3 + 3) ≤ c.dyn.cnt →
      let e := c.dyn.acc * 512 / (c.dyn.cnt : Int)
      Completes (.trackingUpdate a) s (fun t =>
        (cell t n).dyn.acc = 0 ∧ (cell t n).dyn.cnt = 0 ∧ (cell t n).ent = c.ent ∧ (∀ b, b ≠ n → cell t b = cell s b) ∧
          (e.natAbs < 4096 ∨ commands s = false →
            t = { s with sent := [], cells := t.cells } ∧ (cell t n).dyn.dsExact = c.dyn.dsExact ∧
              (cell t n).dyn.usExact = c.dyn.usExact) ∧
          (4096 ≤ e.natAbs → commands s = true →
            (cell t n).dyn.dsExact = c.dyn.dsExact + e / 2 ∧ (cell t n).dyn.usExact = c.dyn.usExact + e / 2 ∧
              (lane t (n / 128)).waiting = (lane s (n / 128)).waiting ++
                [{ op := 2, slot := BitVec.ofNat 8 (n % 128), owner := .tracking a }]) ∧
          t.regs = s.regs ∧ t.conv = s.conv))

/-- The mailbox (R167): an operation of a cell that has been BUSY for 2,048 ticks is resent first in its lane, and after
three resends the command that asked for it completes with NO_REPLY. Firmware distribution (R169): once nothing of the last
step is outstanding, FW_BEGIN, then each FW_DATA block in turn is queued on every lane, then every ranged cell is queried;
what is missing is sent again and those cells are queried again; with nothing missing the command completes, with OK where
every cell was successful and with FAILED otherwise. The model's own part: log entries 4, 27, 29. -/
def Obligations.MailboxAndFirmware : Prop :=
  ∀ s : State, Live s →
    (∀ (l : LaneIx) (tag : Byte) (o : MbxOut) (b : Tick), ((lane s l).out.find? fun x => x.tag == tag) = some o →
      o.busy = some b → 2048 ≤ tickDiff s.tick b →
      (o.op.resends < 3 → Completes (.mailboxBusyTimeout l tag) s (fun t =>
        (lane t l).out = (lane s l).out.filter (fun q => q != o) ∧
          (lane t l).waiting = { o.op with resends := o.op.resends + 1 } :: (lane s l).waiting ∧
          t = { s with sent := [], lanes := t.lanes } ∧ ∀ k, k ≠ l.val → lane t k = lane s k)) ∧
      (∀ k a, 3 ≤ o.op.resends → o.op.owner = .host k → (s.accepted.find? fun x => x.order == k) = some a →
        a.cmd.mirrored = false → hDiscards s a.cmd.ctx = false → Completes (.mailboxBusyTimeout l tag) s (fun t =>
          Completed a .noReply t ∧ (lane t l).out = (lane s l).out.filter (fun q => q != o) ∧ t.cells = s.cells ∧
            t.conv = s.conv))) ∧
    (∀ j, s.fwJob = some j → fwBusy s = false →
      (j.stage = .begin_ → Completes .fwDistributionStep s (fun t =>
        t.fwJob = some { j with stage := .data, next := 0 } ∧
          (commands s = true → ∀ l ∈ j.lanes,
            ({ op := 0x0B, arg := BitVec.ofNat 32 j.image.length, owner := .firmware 0
               data := padTo 32 j.sha ++ leBytes 4 (fwBlocks j) ++ leBytes 4 j.version.toNat } : MbxOp) ∈ (lane t l).waiting) ∧
          t.regs = s.regs ∧ t.cells = s.cells ∧ t.conv = s.conv)) ∧
      (j.stage = .data → j.next < fwBlocks j → Completes .fwDistributionStep s (fun t =>
        t.fwJob = some { j with next := j.next + 1 } ∧
          (commands s = true → ∀ l ∈ j.lanes,
            ({ op := 0x0C, arg := BitVec.ofNat 32 j.next, owner := .firmware 0
               data := fwBlock j j.next } : MbxOp) ∈ (lane t l).waiting) ∧
          t.regs = s.regs ∧ t.cells = s.cells ∧ t.conv = s.conv)) ∧
      (∀ cells : List CellAddr, cells ≠ [] →
        (j.stage = .data ∧ fwBlocks j ≤ j.next ∧ cells = fwTargets s j) ∨ (j.stage = .resend ∧ cells = j.targets) →
        Completes .fwDistributionStep s (fun t =>
          t.fwJob = some { j with stage := .query, targets := cells, missing := [] } ∧
            (commands s = true → ∀ a ∈ cells,
              ({ op := 0x0D, slot := BitVec.ofNat 8 (slotOf a), owner := .firmware 0 } : MbxOp) ∈ (lane t (laneOf a)).waiting) ∧
            t.regs = s.regs ∧ t.cells = s.cells ∧ t.conv = s.conv)) ∧
      (j.stage = .query → j.missing ≠ [] → Completes .fwDistributionStep s (fun t =>
        (∃ k, t.fwJob = some k ∧ k.stage = .resend ∧ k.missing = [] ∧ k.order = j.order ∧ k.image = j.image) ∧ t.regs = s.regs ∧
          t.cells = s.cells ∧ t.conv = s.conv)) ∧
      (∀ a, j.stage = .query → j.missing = [] →
        (s.accepted.find? fun x => x.order == j.order) = some a → a.cmd.mirrored = false → hDiscards s a.cmd.ctx = false →
        Completes .fwDistributionStep s (fun t =>
          t.fwJob = none ∧ Completed a (if ∀ r ∈ j.results, r.2 = 1 then .ok else .failed) t ∧ t.cells = s.cells ∧
            t.conv = s.conv)))

/-- Lanes (R127, R128): LOS_TICKS ticks without a decoded burst show LOS and raise LANE_LOS; CODE_THR errors in a tick raise
LANE_CODE once, on the Dovetail and referee lanes (64 to 68) too. The loss of a lane PLL (R71) stops its 16 lanes, which
show LOS, and raises LANE_LOS; the loss of the port PLL stops the Dovetail and referee lanes, takes every Ethernet port down
and raises DPX_LINK and REFEREE. The model's own part: log entries 4, 26. -/
def Obligations.LaneErrorsAndPlls : Prop :=
  ∀ s : State, Live s →
    (∀ l : LaneIx, s.lanesOn = true → laneRuns s l = true → laneEn s l = true → rdB s (LNK_STATUS_LOS l) = false →
      rd s LNK_GCFG_LOS_TICKS ≤ (lane s l).quiet → Completes (.laneLos l) s (fun t =>
        rdB t (LNK_STATUS_LOS l) = true ∧ Raised .laneLos s t ∧ active t (srcBit .laneLos) = true ∧ t.base = s.base ∧
          KeepsRegs (fun a => raiseReg a || a == (LNK_STATUS_LOS l).addr || a == (LNK_LOS_CNT_COUNT l).addr) s t)) ∧
    (∀ l : Fin 69, (lane s l).codeDone = false → rd s LNK_GCFG_CODE_THR ≤ (lane s l).codeTick → Completes (.laneCode l) s (fun t =>
      (lane t l).codeDone = true ∧ Raised .laneCode s t ∧ KeepsRegs raiseReg s t ∧ (∀ k, k ≠ l.val → lane t k = lane s k) ∧
        KeepsCells s t ∧ t.conv = s.conv)) ∧
    (∀ k : Fin 4, rdBit s CLK_STATUS_LPLL_LOCK k = true → Completes (.lanePllUnlock k) s (fun t =>
      (∀ m, m < 4 → rdBit t CLK_STATUS_LPLL_LOCK m = (rdBit s CLK_STATUS_LPLL_LOCK m && decide (m ≠ k.val))) ∧
        (∀ l, l < 64 → l / 16 = k.val → laneRuns t l = false ∧ rdB t (LNK_STATUS_LOS l) = true ∧ rdB t (LNK_STATUS_UP l) = false) ∧
        (∀ l, l < 64 → l / 16 ≠ k.val → lane t l = lane s l) ∧ Raised .laneLos s t ∧ active t (srcBit .laneLos) = true ∧
        KeepsCells s t ∧ t.conv = s.conv)) ∧
    (rdB s CLK_STATUS_PORT_LOCK = true → Completes .portPllUnlock s (fun t =>
      rdB t CLK_STATUS_PORT_LOCK = false ∧ (∀ k, k < 5 → rdB t (LNK_STATUS_UP (64 + k)) = false) ∧ (∀ p, p < 4 → rdB t (NET_PORTSTAT_LINK p) = false) ∧
        latched t (srcBit .dpxLink) = true ∧ latched t (srcBit .referee) = true ∧ KeepsCells s t ∧ t.conv = s.conv ∧
        t.lanes = s.lanes))

/-- Cell echo (R123, R125): GO on an idle lane to a ranged or available slot in WATCH, READY or BLOCKED starts it; otherwise
the write is refused; without GO it places SLOT and TICKS; after its ticks, or when the converter leaves those states, it
ends. The model's own part: log entry 26. -/
def Obligations.CellEcho : Prop :=
  ∀ (l : LaneIx) (v : Word) (s : State),
    let slot := v.toNat % 128
    let ticks := v.toNat / 256 % 65536
    let av := (cell s (l.val * 128 + slot)).ent.avail
    let may := s.conv = .watch ∨ s.conv = .ready ∨ s.conv = .blocked
    (Writable (0x1000C + 0x100 * l.val) s → v.getLsbD 7 = true → (lane s l).echo = none → may → av ≠ .empty → av ≠ .unranged →
      ticks ≠ 0 → Completes (.lnkEchoGo l v) s (fun t =>
        (lane t l).echo = some { slot := slot, left := ticks } ∧ rdB t (LNK_ECHO_GO l) = true ∧
          rdB t (LNK_STATUS_ECHO_BUSY l) = true ∧ rd t (LNK_ECHO_SLOT l) = slot ∧ rd t (LNK_ECHO_TICKS l) = ticks ∧
          (commands s = true → (lane t l).waiting = (lane s l).waiting ++
            [{ op := 6, slot := BitVec.ofNat 8 slot, arg := BitVec.ofNat 32 ticks, owner := .echo }]) ∧
          KeepsRegs (fun a => a == (LNK_ECHO_GO l).addr || a == (LNK_STATUS_UP l).addr) s t ∧ t.cells = s.cells ∧
          t.conv = s.conv)) ∧
    (Writable (0x1000C + 0x100 * l.val) s → v.getLsbD 7 = true →
      (lane s l).echo.isSome = true ∨ ¬ may ∨ av = .empty ∨ av = .unranged ∨ ticks = 0 → Completes (.lnkEchoGo l v) s (fun t =>
        rdB t (LNK_STATUS_WRERR l) = true ∧ OnlyRegs [(LNK_STATUS_WRERR l).addr] s t)) ∧
    (Writable (0x1000C + 0x100 * l.val) s → v.getLsbD 7 = false → ticks ≠ 0 → Completes (.lnkEchoGo l v) s (fun t =>
      rd t (LNK_ECHO_SLOT l) = slot ∧ rd t (LNK_ECHO_TICKS l) = ticks ∧ OnlyRegs [(LNK_ECHO_SLOT l).addr] s t)) ∧
    (∀ e, Live s → (lane s l).echo = some e → e.left = 0 ∨ ¬ may → Completes (.echoEnd l) s (fun t =>
      (lane t l).echo = none ∧ rdB t (LNK_ECHO_GO l) = false ∧ rdB t (LNK_STATUS_ECHO_BUSY l) = false ∧
        (commands s = true → (lane t l).waiting = (lane s l).waiting ++
          [{ op := 7, slot := BitVec.ofNat 8 e.slot, owner := .echo }]) ∧
        KeepsRegs (fun a => a == (LNK_ECHO_GO l).addr || a == (LNK_STATUS_UP l).addr) s t ∧ t.cells = s.cells ∧
        t.conv = s.conv ∧ t.sent = []))

/-- 2 µs after the loss of lock (R84): the lanes are dark, both groups of transmitters disabled, BYPASS and COARSE show, the
compute phase and its frames are gone, a pending change of the numbering has ended, and a converter in WATCH, READY or
DEBLOCKED is BLOCKED; in any other state it stays. The model's own part: log entries 4, 19. -/
def Obligations.LanesStopOnUnlock : Prop :=
  ∀ (x : Nat) (s : State), Live s → s.clk.stopAt = some x → Completes .lanesStopOnUnlock s (fun t =>
    t.clk.stopAt = none ∧ t.time = max s.time x ∧ t.lanesOn = false ∧ (∀ l, l < 64 → laneRuns t l = false) ∧
      t.pin.txdisG0 = true ∧ t.pin.txdisG1 = true ∧ rdB t CLK_STATUS_BYPASS = true ∧ rdB t TIM_STATUS_COARSE = true ∧
      t.run = none ∧ t.ready = [] ∧ t.waitIn = [] ∧ t.numChange = none ∧
      (s.conv = .watch ∨ s.conv = .ready ∨ s.conv = .deblocked → t.conv = .blocked) ∧
      (s.conv = .dormant ∨ s.conv = .blocked ∨ s.conv = .tripped → t.conv = s.conv) ∧
      (∀ a, (cell t a).ent = (cell s a).ent) ∧ t.tabs = s.tabs)

/-! Measurement, filter chains and the loop engine (chapters 07 to 09, 12). -/

/-- BADMAX consecutive BAD outputs while DEBLOCKED raise the comparator's source once (R344): ARM_OC for the arms'
comparators, DC_OV for the poles'. A stuck bitstream (R216): shown and raised once while its clock runs; its end clears it
and asks a running chain for a reset. SV_HOLD missing samples make the delivered values of the stream BAD and raise SV_LOSS
once (R233). A mailbox as old as STALE marks is latched as HELD and shown in LPE_STALE (R281). The model's own part: log
entries 4, 31, 32, 35. -/
def Obligations.InputsFail : Prop :=
  (∀ (i : Fin 14) (s : State), Live s → (cmpCfg (prt s) i).1 = true → s.conv = .deblocked →
     fld (prt s) 98 3 3 ≤ (cmpGet s i).bad → 0 < (cmpGet s i).bad → (cmpGet s i).badDone = false →
     Completes (.nomeas i) s (fun t =>
       Raised (if i.val < 12 then .armOc else .dcOv) s t ∧ RaiseFrame s t ∧ cmpGet t i = { cmpGet s i with badDone := true } ∧
         ∀ k, k < 14 → k ≠ i.val → cmpGet t k = cmpGet s k)) ∧
  (∀ s : State, Live s →
     (∀ n : Fin 24, s.meas.clkEn.testBit (n.val / 4) = true → s.meas.stuck.getLsbD n = false → Completes (.sdStuck n) s (fun t =>
       (∀ k, k < 24 → t.meas.stuck.getLsbD k = (s.meas.stuck.getLsbD k || decide (k = n.val))) ∧
         rdB t (MEA_SDCH_STUCK n) = true ∧ Raised .measOpenwire s t ∧
         t.base = { s with meas := { s.meas with stuck := t.meas.stuck } }.base ∧
         KeepsRegs (fun a => raiseReg a || a == (MEA_SDCH_STUCK n).addr) s t)) ∧
     (∀ n : Fin 24, s.meas.stuck.getLsbD n = true → Completes (.sdStuckEnd n) s (fun t =>
       (∀ k, k < 24 → t.meas.stuck.getLsbD k = (s.meas.stuck.getLsbD k && decide (k ≠ n.val))) ∧
         rdB t (MEA_SDCH_STUCK n) = false ∧
         chain t n = (if (chain s n).running then { chain s n with resetReq := true } else chain s n) ∧
         (∀ k, k ≠ n.val → chain t k = chain s k) ∧ KeepsRegs (fun a => a == (MEA_SDCH_STUCK n).addr) s t ∧
         t = { s with sent := [], regs := t.regs, chains := t.chains, meas := { s.meas with stuck := t.meas.stuck } })) ∧
     (∀ i : Fin 16, fldB (svEntry s i) 8 0 = true → (svSt s i).lost = false → fld (svEntry s i) 10 0 8 ≤ (svSt s i).missRun →
       Completes (.svLoss i) s (fun t =>
         svSt t i = { svSt s i with lost := true, deliv := (svSt s i).deliv.map fun v => { v with qual := 5 } } ∧
           (∀ k, k ≠ i.val → svSt t k = svSt s k) ∧ Raised .svLoss s t ∧
           RaiseFrame { s with meas := { s.meas with sv := t.meas.sv } } t)) ∧
     (∀ m : Fin 64, rd s LPE_CFG_STALE ≠ 0 → rd s LPE_CFG_STALE ≤ (kget ({} : RefMbx) s.mbx m.val).age →
       rdBit s (LPE_STALE_STALE (m.val / 32)) (m.val % 32) = false → Completes (.mailboxStale m) s (fun t =>
         rdBit t (LPE_STALE_STALE (m.val / 32)) (m.val % 32) = true ∧
           (kget ({} : RefMbx) t.mbx m.val).latched.val = (kget ({} : RefMbx) s.mbx m.val).latched.val ∧
           (kget ({} : RefMbx) t.mbx m.val).latched.qual = qMax (kget ({} : RefMbx) s.mbx m.val).latched.qual qHeld ∧
           (∀ k, k ≠ m.val → kget ({} : RefMbx) t.mbx k = kget ({} : RefMbx) s.mbx k) ∧
           t = { s with sent := [], regs := t.regs, mbx := t.mbx })))

/-- SAR triggers (R218, R220): with no scan running a trigger starts one, with one running it is latched, with one latched
it is lost and SCAN_OVR shows it; so the tick's trigger at its instant and the software's. A write with TICK_DIV 0 or
TICK_OFS beyond the tick is refused. A SAR scan's results (R218, R220, R222, R227): each conversion in order adds its
calibrated value at 0.5 µs per conversion; after the last the scan ends, a failed reference check is shown and raised, and a
latched trigger starts the next scan at once with its own stamp. Calibration (R223, R224): GO starts the averaging of a
point, is refused while one is averaged, and ends in CAL_ERR at once for a masked channel or a second point without the
first; once the scan of the last result has ended, 256 results give A0, or with A1 the held writes of OFS and GAIN, or
CAL_ERR where one was BAD or the gain lies outside 3/4 to 5/4. The model's own part: log entries 4, 31. -/
def Obligations.ScansAndCalibration : Prop :=
  (∀ s : State,
     let starts := fun (now : Nat) (t : State) =>
       t.meas.scan = some { stamp := now, start := now, seq := s.meas.scanSeq, mask := BitVec.ofNat 22 (rd s MEA_SAR_MASK_MASK) } ∧
         t.meas.pend = none ∧ t.meas.scanSeq = s.meas.scanSeq + 1 ∧ rdB t MEA_SAR_STAT_BUSY = true ∧ rdB t MEA_SAR_STAT_PEND = false
     let latches := fun (now : Nat) (t : State) =>
       t.meas.scan = s.meas.scan ∧ t.meas.pend = some now ∧ t.meas.scanSeq = s.meas.scanSeq ∧ rdB t MEA_SAR_STAT_PEND = true
     let loses := fun (t : State) =>
       t.meas.scan = s.meas.scan ∧ t.meas.pend = s.meas.pend ∧ t.meas.scanSeq = s.meas.scanSeq ∧ rdB t MEA_SAR_STAT_SCAN_OVR = true
     let frame := fun (t : State) => t.cells = s.cells ∧ t.conv = s.conv ∧ t.chains = s.chains ∧ t.sent = []
     (∀ x, Live s → s.meas.tickDue = some x → Completes .sarTickTrigger s (fun t =>
       t.time = max s.time x ∧ t.meas.tickDue = none ∧ frame t ∧
         (s.meas.scan = none → starts (max s.time x) t) ∧
         (s.meas.scan.isSome = true → s.meas.pend = none → latches (max s.time x) t) ∧
         (s.meas.scan.isSome = true → s.meas.pend.isSome = true → loses t))) ∧
     (∀ v : Word, Writable 0x21004 s → v.toNat / 256 % 256 ≠ 0 → v.toNat / 65536 < tickLen s → Completes (.meaSarTrigSw v) s (fun t =>
       rd t MEA_SAR_TRIG_TICK_DIV = v.toNat / 256 % 256 ∧ rd t MEA_SAR_TRIG_TICK_OFS = v.toNat / 65536 ∧
         rdB t MEA_SAR_TRIG_TICK_EN = v.getLsbD 0 ∧ rdB t MEA_SAR_TRIG_TIME_EN = v.getLsbD 1 ∧ t.time = s.time ∧ frame t ∧
         (v.getLsbD 2 = false → t.meas = s.meas ∧ OnlyRegs [0x21004] s t) ∧
         (v.getLsbD 2 = true → s.meas.scan = none → starts s.time t) ∧
         (v.getLsbD 2 = true → s.meas.scan.isSome = true → s.meas.pend = none → latches s.time t) ∧
         (v.getLsbD 2 = true → s.meas.scan.isSome = true → s.meas.pend.isSome = true → loses t))) ∧
     (∀ v : Word, Writable 0x21004 s → v.toNat / 256 % 256 = 0 ∨ tickLen s ≤ v.toNat / 65536 → Completes (.meaSarTrigSw v) s (fun t =>
       rdB t MEA_SAR_STAT_WRERR = true ∧ OnlyRegs [MEA_SAR_STAT_WRERR.addr] s t))) ∧
  (∀ (x : SarScan) (s : State), Live s → s.meas.scan = some x →
     (∀ (ch : Fin 23) (raw : BitVec 16), (scanList x.mask)[x.results.length]? = some ch.val → Completes (.sarResultReady ch raw) s (fun t =>
       let q := if ch.val < 16 ∧ rdBit s MEA_OW_STAT_OPEN ch = true then qBad else qFine
       t.time = max s.time (x.start + (x.results.length + 1) * 500) ∧
         t.meas.scan = some { x with results := x.results ++ [(ch.val, sarResult s ch raw.toNat, q)] } ∧
         kget ({} : SarResult) t.meas.latest ch.val = { val := BitVec.ofInt 16 (sarResult s ch raw.toNat), qual := q, stamp := x.stamp,
                                                        delay := BitVec.ofNat 16 (min 65535 (x.start - x.stamp)), seq := x.seq } ∧
         (∀ k, k ≠ ch.val → kget ({} : SarResult) t.meas.latest k = kget {} s.meas.latest k) ∧ t.meas.pend = s.meas.pend ∧
         KeepsCells s t ∧ t.conv = s.conv)) ∧
     (∀ m : SarMonitors, (scanList x.mask).length ≤ x.results.length → Completes (.sarScanEnd m) s (fun t =>
       t.time = max s.time (x.start + (scanList x.mask).length * 500) ∧ KeepsCells s t ∧ t.conv = s.conv ∧
         (s.meas.pend = none → t.meas.scan = none ∧ rdB t MEA_SAR_STAT_BUSY = false) ∧
         (∀ p, s.meas.pend = some p → t.meas.pend = none ∧ rdB t MEA_SAR_STAT_BUSY = true ∧ rdB t MEA_SAR_STAT_PEND = false ∧
           t.meas.scan = some { stamp := p, start := t.time, seq := s.meas.scanSeq, mask := BitVec.ofNat 22 (rd s MEA_SAR_MASK_MASK) }) ∧
         (let ref := ((x.results.find? fun r => r.1 == 16).map fun r => r.2.1).getD 0
          3 * (refFactory s).natAbs < 1000 * (ref - refFactory s).natAbs →
            latched t (srcBit .measWindow) = true ∧ rdB t MEA_SAR_STAT_REFCHK = true ∧
              ∀ r ∈ x.results, (kget ({} : SarResult) t.meas.latest r.1).qual = qBad)))) ∧
  (∀ s : State,
     (∀ v : Word, Writable 0x21010 s →
       let ch := v.toNat % 64
       (rdB s MEA_SAR_STAT_CAL_BUSY = false → v.getLsbD 7 = true → ch < 40 → ch < 24 ∨ rdBit s MEA_SAR_MASK_MASK (ch - 24) = true →
         (v.getLsbD 6 = false ∨ ∃ a, s.meas.calA0 = some (ch, a)) → Completes (.meaCalGo v) s (fun t =>
           t.meas = { s.meas with cal := some { ch := ch, point := v.getLsbD 6 } } ∧ rdB t MEA_SAR_STAT_CAL_BUSY = true ∧
             rd t MEA_CAL_CH = ch ∧ rdB t MEA_CAL_POINT = v.getLsbD 6 ∧ t = { s with sent := [], regs := t.regs, meas := t.meas } ∧
             KeepsRegs (fun a => a == MEA_SAR_STAT_CAL_BUSY.addr || a == MEA_CAL_CH.addr) s t)) ∧
       (rdB s MEA_SAR_STAT_CAL_BUSY = false → v.getLsbD 7 = true → ch < 40 →
         (24 ≤ ch ∧ rdBit s MEA_SAR_MASK_MASK (ch - 24) = false) ∨ (v.getLsbD 6 = true ∧ ∀ a, s.meas.calA0 ≠ some (ch, a)) →
         Completes (.meaCalGo v) s (fun t =>
           t.meas = { s.meas with cal := none } ∧ rdB t MEA_SAR_STAT_CAL_ERR = true ∧ rdB t MEA_SAR_STAT_CAL_BUSY = false ∧
             rd t MEA_CAL_CH = ch ∧ rdB t MEA_CAL_POINT = v.getLsbD 6 ∧ t = { s with sent := [], regs := t.regs, meas := t.meas } ∧
             KeepsRegs (fun a => a == MEA_SAR_STAT_CAL_BUSY.addr || a == MEA_CAL_CH.addr) s t)) ∧
       ((rdB s MEA_SAR_STAT_CAL_BUSY = true ∧ v.getLsbD 7 = true) ∨ 40 ≤ ch → Completes (.meaCalGo v) s (fun t =>
         rdB t MEA_SAR_STAT_WRERR = true ∧ OnlyRegs [MEA_SAR_STAT_WRERR.addr] s t)) ∧
       (v.getLsbD 7 = false → ch < 40 → Completes (.meaCalGo v) s (fun t =>
         rd t MEA_CAL_CH = ch ∧ rdB t MEA_CAL_POINT = v.getLsbD 6 ∧ OnlyRegs [0x21010] s t))) ∧
     (∀ r : CalRun, Live s → s.meas.cal = some r → 256 ≤ r.count →
       calOpen s r = false →
       (r.bad = true → Completes .calibrationPointDone s (fun t =>
         rdB t MEA_SAR_STAT_CAL_ERR = true ∧ rdB t MEA_SAR_STAT_CAL_BUSY = false ∧ t.meas = { s.meas with cal := none } ∧
           t.stWrites = s.stWrites)) ∧
       (r.bad = false → r.point = false → Completes .calibrationPointDone s (fun t =>
         t.meas = { s.meas with cal := none, calA0 := some (r.ch, r.sum / 256) } ∧ rdB t MEA_SAR_STAT_CAL_BUSY = false ∧
           OnlyRegs [MEA_SAR_STAT_CAL_BUSY.addr] { s with meas := t.meas } t)) ∧
       (∀ k a0, r.bad = false → r.point = true → s.meas.calA0 = some (k, a0) →
         let d := r.sum / 256 - a0
         let fs : Rat := (rd s MEA_CAL_FS_FS : Nat)
         (d ≤ 0 ∨ fs / d < 3 / 4 ∨ 5 / 4 < fs / d → Completes .calibrationPointDone s (fun t =>
           rdB t MEA_SAR_STAT_CAL_ERR = true ∧ rdB t MEA_SAR_STAT_CAL_BUSY = false ∧ t.meas = { s.meas with cal := none } ∧
             t.stWrites = s.stWrites)) ∧
         (0 < d → 3 / 4 ≤ fs / d → fs / d ≤ 5 / 4 → Completes .calibrationPointDone s (fun t =>
           rdB t MEA_SAR_STAT_CAL_BUSY = false ∧ rdB t TCK_COMMIT_PEND = true ∧
             (∃ o g, t.stWrites = s.stWrites ++ [{ addr := (MEA_OFS_OFS r.ch).addr, value := o, at_ := s.time },
               { addr := (MEA_GAIN_GAIN r.ch).addr, value := g, at_ := s.time }] ∧
               o = BitVec.ofNat 32 (roundAway a0 % (2 ^ (MEA_OFS_OFS r.ch).width : Nat)).toNat ∧
               g = BitVec.ofNat 32 (roundAway (fs / d * 65536) % (2 ^ (MEA_GAIN_GAIN r.ch).width : Nat)).toNat) ∧
             t.meas = { s.meas with cal := none } ∧ t.cells = s.cells ∧ t.conv = s.conv)))))

/-- The outputs of a sigma-delta chain outside a fade (R237, R238, R240, R243, R244, R249). The decimators stand where the
output before left them. The bits of a fast output give one value of the sinc2, which completes at its instant, converted by
the active bank: BAD before the second output (R240) and while the channel is stuck (R216). The bits of a fine output give
R2 values of the sinc3, which are fed to the line; the sum of the FIR over it completes at its instant with the worst
quality of its span. A write to FLC_RST0 or FLC_RST1 asks each chain named for a reset, at the next mark or, inside its
fence, at the one after; the bits read 1 until applied, and no other chain is touched (R248). The model's own part: log
entries 4, 30, 69. -/
def Obligations.FilterChains : Prop :=
  (∀ (c : Fin 40) (bits : List Bool) (s : State), Live s → sdRuns s c = true → (chain s c).fade = none →
     let e := chDesc s c
     let x := chain s c
     let b := chBank s c x.bankB
     let inv := rdB s (MEA_SDCH_INV c)
     (chFast e = true → 1 < chR3 e → x.sinc2.n = bitNat (x.fastCnt == 0) → bits.length = pathBits (x.fastCnt + 1) (chR3 e) →
       Completes (.fastPathOutput c bits) s (fun t =>
         let at_ := sdInstant s x (x.fastCnt + 1) (chR3 e)
         t.time = max s.time at_ ∧ (chain t c).fastCnt = x.fastCnt + 1 ∧ (chain t c).fineCnt = x.fineCnt ∧
           (chain t c).sinc2 = (cicRun false (chR3 e) inv bits x.sinc2).1 ∧ (chain t c).sinc2.n = 0 ∧
           (∃ y, (cicRun false (chR3 e) inv bits x.sinc2).2 = [y] ∧
             (chain t c).fast = some { value := of32 (convert s c b (cicRaw false (chR3 e) y)), at_ := at_, bank := x.bankB
                                       qual := if x.fastCnt = 0 ∨ s.meas.stuck.getLsbD c = true then qBad else qFine }) ∧
           (∀ k, k ≠ c.val → chain t k = chain s k) ∧ KeepsCells s t ∧ t.conv = s.conv)) ∧
     (1 < chR1 e → 0 < chR2 e → x.sinc3.n = bitNat (x.fineCnt == 0) → bits.length = pathBits (x.fineCnt + 1) (chR1 e * chR2 e) →
       Completes (.finePathOutput c bits) s (fun t =>
         let at_ := sdInstant s x (x.fineCnt + 1) (chR1 e * chR2 e)
         let ys := (cicRun true (chR1 e) inv bits x.sinc3).2
         let y := ((List.range ys.length).zip ys).foldl (fun y i =>
           feed (chMed e) (cicRaw true (chR1 e) i.2) (sdQual s c (cicValid true (x.sinc3.outs + i.1 + 1))) y) x
         t.time = max s.time at_ ∧ (chain t c).fineCnt = x.fineCnt + 1 ∧ (chain t c).fastCnt = x.fastCnt ∧
           (chain t c).fresh = 0 ∧ ys.length = chR2 e ∧ (chain t c).sinc3.n = 0 ∧
           (chain t c).fines = ({ value := of32 (convert s c b (firSum b y.firLine)), at_ := at_, bank := x.bankB
                                  qual := lineQuality y (bkTaps b) (chMed e) } :: x.fines).take 16 ∧
           (chain t c).firLine = y.firLine ∧ (∀ k, k ≠ c.val → chain t k = chain s k) ∧ KeepsCells s t ∧ t.conv = s.conv))) ∧
  (∀ (high : Bool) (v : Word) (s : State), Writable (if high then 0x28004 else 0x28000) s → Completes (.flcRst high v) s (fun t =>
     (∀ k, k < 32 → (if high then 32 + k else k) < 40 →
       let c := if high then 32 + k else k
       (v.getLsbD k = true → rdBit t (if high then FLC_RST1_RST else FLC_RST0_RST) k = true ∧
         chain t c = (if inFence s then { chain s c with resetLate := true } else { chain s c with resetReq := true })) ∧
       (v.getLsbD k = false → chain t c = chain s c)) ∧
     (∀ c, decide (c < 32) = high → chain t c = chain s c) ∧
     t = { s with sent := [], regs := t.regs, chains := t.chains } ∧
       KeepsRegs (fun a => a == (if high then 0x28004 else 0x28000)) s t))

/-! Networks and remote stations (chapters 15 and 19). -/

/-- Ports (R515, R517): a port that is enabled, with both PLLs locked and its domain on, comes up in its PTP state; a port
that goes down shows it, counts it and forgets its master. A PRP supervision frame leaves on every port of the pair that is
up, on both with the pair's next SeqNr (R518). PTP (R521, R523, R524): a port that is up sends Pdelay_Req with a new
sequence number; a master port sends Sync in two steps, its Follow_Up carrying the corrected egress time (R525), and
Announce, with its own data or those of the master it follows one step further, while its device may, and is PASSIVE
otherwise; a slave port whose Announce messages stop for 3 s listens again. The model's own part: log entries 2, 4, 8, 47.
-/
def Obligations.PortsAndPtp : Prop :=
  (∀ s : State, Live s →
     (∀ p : Fin 4, rdB s (NET_PORTSTAT_LINK p) = false → rdBit s NET_CFG_PORTEN p = true → rdB s CLK_STATUS_PORT_LOCK = true →
       rdB s CLK_STATUS_LOCK = true → domainOn s 9 = true → Completes (.portUp p) s (fun t =>
         rdB t (NET_PORTSTAT_LINK p) = true ∧ OnlyRegs [(NET_PORTSTAT_LINK p).addr] s t ∧
           (ptpPort s p = false → pstate t p = pDisabled) ∧ (ptpPort s p = true → slavePair s p = true → pstate t p = pListening) ∧
           (ptpPort s p = true → slavePair s p = false → pstate t p = (if masterSends s then pMaster else pPassive)))) ∧
     (∀ p : Fin 4, rdB s (NET_PORTSTAT_LINK p) = true → Completes (.portDown p) s (fun t =>
       rdB t (NET_PORTSTAT_LINK p) = false ∧ pstate t p = (if ptpPort s p then pFaulty else pDisabled) ∧
         rd t (NET_LINKDN_CNT_COUNT p) = min (rd s (NET_LINKDN_CNT_COUNT p) + 1) (2 ^ (NET_LINKDN_CNT_COUNT p).width - 1) ∧
         port t p = { port s p with best := none, syncWait := none, pdT1 := none, pdT2 := none } ∧
         (∀ k, k ≠ p.val → port t k = port s k) ∧ KeepsCells s t ∧ t.conv = s.conv ∧ t.lanes = s.lanes)) ∧
     (∀ pair : Fin 2, Completes (.prpSupervisionSend pair) s (fun t =>
       let n := kget 0 s.net.seqNr pair.val
       t.sent = ([2 * pair.val, 2 * pair.val + 1].filter fun p => rdB s (NET_PORTSTAT_LINK p)).map
           (fun p => .net p (pairMac s p) (some n) .supervision) ∧
         kget 0 t.net.seqNr pair.val = n + 1 ∧ (∀ k, k ≠ pair.val → kget 0 t.net.seqNr k = kget 0 s.net.seqNr k) ∧
         t = { s with sent := t.sent, net := { s.net with seqNr := t.net.seqNr } }))) ∧
  (∀ (p : Fin 4) (raw : Int) (s : State), Live s → ptpPort s p = true →
     let n := kget 0 s.net.seqNr (p.val / 2)
     let msg := fun (n : BitVec 16) (m : PtpMsg) => (Emission.net p (pairMac s p) (some n) (.ptp (ptpDomain s) m))
     (portUp s p = true → Completes (.ptpInterval p .pdelayReq raw) s (fun t =>
       let q := (port s p).pdSeq + 1
       t.sent = [msg n (.pdelayReq q)] ∧
         port t p = { port s p with pdSeq := q, pdT1 := some (egress s p raw), pdT2 := none } ∧
         (∀ k, k ≠ p.val → port t k = port s k) ∧
         t = { s with sent := t.sent, net := { s.net with ports := t.net.ports, seqNr := t.net.seqNr } })) ∧
     (portUp s p = true → masterPort s p = true → masterSends s = true →
       Completes (.ptpInterval p .sync raw) s (fun t =>
         let q := (port s p).txSeq
         t.sent = [msg n (.sync q true 0 0), msg (n + 1) (.followUp q (egress s p raw) 0)] ∧
           port t p = { port s p with txSeq := q + 1 } ∧ (∀ k, k ≠ p.val → port t k = port s k) ∧ pstate t p = pMaster ∧
           KeepsRegs (fun a => a == (NET_PORTSTAT_LINK p).addr) s t ∧ t.cells = s.cells ∧ t.conv = s.conv) ∧
       Completes (.ptpInterval p .announce raw) s (fun t =>
         let p0 := 2 * rd s NET_PTPCFG_SPAIR
         let src := if pstate s (p0 + 1) = pSlave then p0 + 1 else p0
         (∀ b, (port s src).best = some b →
            t.sent = [msg n (.announce { b with steps := b.steps + 1, sender := Config.serial })]) ∧
           ((port s src).best = none → t.sent = [msg n (.announce {
             prio1 := rd s NET_PTPCFG_PRIO1, prio2 := rd s NET_PTPCFG_PRIO2, gmId := Config.serial, sender := Config.serial
             utc := rdWord s 0x300C })]) ∧
           pstate t p = pMaster ∧ t.net = { s.net with seqNr := t.net.seqNr } ∧
           KeepsRegs (fun a => a == (NET_PORTSTAT_LINK p).addr) s t ∧ t.cells = s.cells ∧ t.conv = s.conv)) ∧
     (∀ k : PtpKind, k ≠ .pdelayReq → portUp s p = true → masterPort s p = true → masterSends s = false →
       Completes (.ptpInterval p k raw) s (fun t =>
         pstate t p = pPassive ∧ OnlyRegs [(NET_PORTSTAT_LINK p).addr] s t)) ∧
     ((port s p).best.isSome = true → (port s p).timedOut = false → slavePair s p = true → Completes (.announceTimeout p) s (fun t =>
       pstate t p = pListening ∧ port t p = { port s p with timedOut := true } ∧
         t.time = max s.time ((port s p).bestAt + 3000000000) ∧ (∀ k, k ≠ p.val → port t k = port s k) ∧ KeepsCells s t ∧
         t.conv = s.conv)))

/-- An Ethernet frame on a port that is up (R516, R519, R520): one whose FCS is bad, and one of a length or to a destination
that the port does not take, is counted and goes no further; of a pair's two copies of a sampled value or GOOSE message the
first is remembered and handed on and the second, within FORGET, is counted and discarded; a Pdelay_Req is answered with its
corrected ingress timestamp and, in a second message, with the corrected egress of the first (R521, R525); a PTP message of
another domain is not taken. A port that is down takes nothing. The model's own part: log entries 2, 4, 9, 47. -/
def Obligations.FramesReceived : Prop :=
  ∀ (p : Fin 4) (f : NetFrame) (s : State), Live s →
    (portUp s p = false → Completes (.prpFrameReceived p f) s (Unchanged s)) ∧
    (portUp s p = true → f.fcsOk = false → Completes (.prpFrameReceived p f) s (OnlyRegs [(NET_FCS_CNT_COUNT p).addr] s)) ∧
    (portUp s p = true → f.fcsOk = true → f.len < 64 ∨ 1522 < f.len ∨ netTakes s p f = false →
      Completes (.prpFrameReceived p f) s (OnlyRegs [(NET_DISC_CNT_COUNT p).addr] s)) ∧
    (∀ lan q, portUp s p = true → f.fcsOk = true → 64 ≤ f.len → f.len ≤ 1522 → netTakes s p f = true → f.trailer = some (lan, q) →
      (∃ l, f.payload = .sv l) ∨ (∃ g, f.payload = .goose g) →
      let dups := kget [] s.net.dups (p.val / 2)
      ((∀ x ∈ dups, x.1 ≠ f.sa ∨ x.2.1 ≠ q) → Completes (.prpFrameReceived p f) s (fun t =>
        kget [] t.net.dups (p.val / 2) = ((f.sa, q, s.time) :: dups).take 2048 ∧ (∀ k, k ≠ p.val / 2 →
            kget [] t.net.dups k = kget [] s.net.dups k) ∧
          (∀ l, f.payload = .sv l → t.meas = (l.foldl (fun s a => svAsdu f.da a s) s).meas ∧ t.sent = []) ∧
          KeepsCells s t ∧ t.conv = s.conv)) ∧
      (∀ x, (dups.find? fun x => x.1 == f.sa && x.2.1 == q) = some x → s.time < x.2.2 + rd s NET_CFG_FORGET * 1000000 →
        Completes (.prpFrameReceived p f) s
          (OnlyRegs [(NET_DUP_CNT_COUNT (p.val / 2)).addr, (NET_WRONGLAN_CNT_COUNT p).addr] s))) ∧
    (∀ q, portUp s p = true → f.fcsOk = true → 64 ≤ f.len → f.len ≤ 1522 → ptpPort s p = true →
      f.payload = .ptp (ptpDomain s) (.pdelayReq q) → Completes (.prpFrameReceived p f) s (fun t =>
        let n := kget 0 s.net.seqNr (p.val / 2)
        t = { s with sent := t.sent, regs := t.regs, net := { s.net with seqNr := t.net.seqNr } } ∧
          KeepsRegs (fun a => a == (NET_WRONGLAN_CNT_COUNT p).addr) s t ∧ (f.trailer = none → t.regs = s.regs) ∧
          t.sent = [.net p (pairMac s p) (some n) (.ptp (ptpDomain s) (.pdelayResp q (ingress s p f.raw))),
            .net p (pairMac s p) (some (n + 1)) (.ptp (ptpDomain s)
              (.pdelayRespFollow q (egress s p (Config.responseStamp p q)) 0))])) ∧
    (∀ d m, portUp s p = true → f.fcsOk = true → 64 ≤ f.len → f.len ≤ 1522 → ptpPort s p = true → f.payload = .ptp d m →
      d ≠ ptpDomain s → Completes (.prpFrameReceived p f) s (OnlyRegs [(NET_WRONGLAN_CNT_COUNT p).addr] s))

/-- GOOSE and stations (R528, R530, R443, R445): a subscription whose timeAllowedToLive has passed is expired; a publication
is repeated on the ports of its pair that are up, with the next sqNum, at an interval that doubles up to T0, on an ACTIVE or
SOLO device; a station whose outputs are unacknowledged at their deadline is LOST, which raises REMOTE_IO once. The model's
own part: log entries 4, 41. -/
def Obligations.StationTimers : Prop :=
  ∀ (i : Fin 32) (s : State), Live s →
    (∀ x, (gsub s i).expires = some x → Completes (.gooseTtlExpiry i) s (fun t =>
      gsub t i = { gsub s i with expires := none, expired := true } ∧ (∀ k, k ≠ i.val → gsub t k = gsub s k) ∧
        t = { s with sent := [], time := max s.time x, net := t.net })) ∧
    (∀ x, (gpub s i).nextAt = some x →
      (commands s = true → Completes (.gooseRepeat i) s (fun t =>
        let e := pubEntry s i
        let gap := min (gooseT0 s) (x - (gpub s i).pubAt)
        let pair := bitNat (goosePair e)
        let next := { gpub s i with sqNum := (gpub s i).sqNum + 1 }
        t.time = max s.time x ∧ gpub t i = { next with nextAt := some (t.time + gap) } ∧
          (∀ k, k ≠ i.val → gpub t k = gpub s k) ∧ kget 0 t.net.seqNr pair = kget 0 s.net.seqNr pair + 1 ∧
          t = { s with time := t.time, sent := t.sent, net := { s.net with pubs := t.net.pubs, seqNr := t.net.seqNr } } ∧
          t.sent = ([2 * pair, 2 * pair + 1].filter fun p => rdB s (NET_PORTSTAT_LINK p)).map
            fun p => .net p (pairMac s p) (some (kget 0 s.net.seqNr pair)) (.goose (goosePdu e gap next)))) ∧
      (commands s = false → Completes (.gooseRepeat i) s (fun t =>
        gpub t i = { gpub s i with nextAt := none } ∧ t = { s with sent := [], net := t.net }))) ∧
    (∀ o x r, (stn s i).waiting = (o, x) :: r → follows s = false → Completes (.stationDeadline i) s (fun t =>
      (stn t i).waiting = r ∧ (stn t i).lost = true ∧ t.time = max s.time x ∧ KeepsCells s t ∧ t.conv = s.conv ∧
        (∀ k, k ≠ i.val → stn t k = stn s k) ∧
        ((stn s i).lost = true → t = { s with sent := [], time := t.time, bench := t.bench }) ∧
        ((stn s i).lost = false → Raised .remoteIo s t ∧ rdBit t BEN_RIO_LOST i = true ∧
          KeepsRegs (fun a => raiseReg a || a == BEN_RIO_LOST.addr) s t)))

/-! Benches and the Foreman (chapters 15 and 16). -/

/-- A cycle of a task ends (R432, R448): the outputs it committed stand in the reference mailboxes, in the remote outputs,
the requests of the built-in blocks and the instance data, a forced variable keeping its value (R439); its time is shown;
and its context leaves its executor for IDLE, or for its wait in an event task; a release it held back (R426) follows at
once. A task that runs no cycle, or whose executor is halted (R66), has none to end. Failures of cycles (R417, R427, R428):
a cycle still running WDT ticks after its release, and one that accesses what it may not, is abandoned with its task
STOPPED, raising WATCHDOG or BUS_ERROR; the record of the latter holds the executor, the kind of access and the address
(R406). Disagreeing cores of a Paired bench take the bench out of service, raise BENCH_LOCKSTEP and abandon the cycle on it.
The model's own part: log entries 2, 39, 40. -/
def Obligations.BenchCycles : Prop :=
  (∀ (n : Fin 96) (outs : List CycleOut) (s : State), Live s →
     (∀ m t0, (task s n).running = some (m, t0) → cycleRuns s n = true →
       Completes (.benchCycleEnd n outs) s (fun t =>
         let u := outs.foldl (cycleOut n) s
         rd t (BEN_TLAST_NS n) = min (2 ^ 32 - 1) (s.time - t0) ∧
           rd t (BEN_TMAX_NS n) = max (min (2 ^ 32 - 1) (s.time - t0)) (rd s (BEN_TMAX_NS n)) ∧ t.time = s.time ∧
           t.cells = s.cells ∧ t.conv = s.conv ∧ (∀ j, j < 47 → latched t j = latched s j) ∧
           ((task s n).held = none → (task t n).running = none ∧ (fctx t n).st = (if n.val < 32 then .idle else .waiting)) ∧
           (∀ h, (task s n).held = some h → (task t n).running = some (h, s.time) ∧ (task t n).held = none ∧ (fctx t n).st = .ready) ∧
           t.mbx = u.mbx ∧ t.bench.swaps = u.bench.swaps ∧ t.bench.edges = u.bench.edges ∧
           (∀ k, (stn t k).outputs = (stn u k).outputs) ∧ ((task s n).held = none → t.bench.idata = u.bench.idata) ∧
           rdB t (BEN_TSTAT_EXC n) = rdB u (BEN_TSTAT_EXC n) ∧
           (outs = [.divZero] → rdB t (BEN_TSTAT_EXC n) = true) ∧
           (∀ off d, outs = [.instanceData off d] → (task s n).forces = [] → (task s n).held = none →
             t.bench.idata = overlay s.bench.idata off d) ∧
           (∀ c b len, outs = [.bankSwap c b len] → t.bench.swaps = s.bench.swaps ++ [(c.val, b, len.toNat, s.time)]) ∧
           (∀ st p v q, outs = [.remote st p v q none] →
             kget ((0 : Word), qFine) (stn t st).outputs p.val = (v, q.getD qFine)) ∧
           (∀ fb falling clk, outs = [.trig fb falling clk none] →
             let x := kget ({} : EdgeMem) s.bench.edges fb.toNat
             kget ({} : EdgeMem) t.bench.edges fb.toNat =
               { prev := clk, q := if falling then x.prev && !clk else clk && !x.prev }) ∧
           (∀ k v q, outs = [.mailbox k v q none] →
             let x := kget ({} : RefMbx) s.mbx k.val
             kget ({} : RefMbx) t.mbx k.val = (if inFence s then { x with late := some { val := v, qual := q.getD qFine } }
               else { x with written := { val := v, qual := q.getD qFine }, fresh := true })))) ∧
     (cycleRuns s n = false → Completes (.benchCycleEnd n outs) s (Unchanged s))) ∧
  (∀ s : State, Live s →
     let stops := fun (n : Nat) (t : State) =>
       (task t n).running = none ∧ (task t n).stopped = true ∧ (task t n).held = none ∧ (fctx t n).st = .stopped ∧
         t.bench.idata = s.bench.idata ∧ t.mbx = s.mbx ∧ KeepsCells s t ∧ t.conv = s.conv
     (∀ (n : Fin 96) d, taskDef s n = some d → (task s n).running.isSome = true → d.wdt ≤ (task s n).age →
       Completes (.watchdog n) s (fun t => Raised .watchdog s t ∧ stops n t)) ∧
     (∀ (n : Fin 96) (a : BadAccess), cycleRuns s n = true →
       Completes (.busError n a) s (fun t => Raised .busError s t ∧ stops n t ∧
         (0 < sevOf s .busError → shadowFor s (srcBit .busError) = none → ∃ r l, t.fcl.ring = r :: l ∧
           r.master = BitVec.ofNat 6 (fctx s n).exec ∧ r.access = a.access ∧ r.addr = a.addr))) ∧
     (∀ b : Fin 8, split s = false → s.bench.benchFailed.getLsbD b = false → Completes (.benchLockstep b) s (fun t =>
       Raised .benchLockstep s t ∧ rdBit t BEN_PSTAT_BENCH_OK b = false ∧
         (∀ k, k < 8 → t.bench.benchFailed.getLsbD k = (s.bench.benchFailed.getLsbD k || decide (k = b.val))) ∧
         t.bench.idata = s.bench.idata ∧ t.mbx = s.mbx ∧ KeepsCells s t ∧ t.conv = s.conv ∧
         (onExec s b = none → t.bench.tasks = s.bench.tasks) ∧
         (∀ c, onExec s b = some c → c < 96 → (fctx s c).exec = b.val → (task t c).running = none ∧ onExec t b = none) ∧
         (∀ c, onExec s b = some c → 96 ≤ c → (fctx t c).st = .ready ∧ onExec t b = none))))

/-- The RETAIN journal (R437): a copy that is written goes to half A and then to half B, after which it leaves the journal;
a write that fails leaves no good copy in its half, ends the entry and raises BUS_ERROR. On-line change (R440, R441): once
no cycle runs the new image is in force, the program runs again and the command completes with OK; cycles still running
CHG_WAIT ticks after the switch tick leave the old image in force, and the command completes with CHANGE_TIMEOUT. The
model's own part: log entry 39. -/
def Obligations.JournalAndChange : Prop :=
  (∀ (j : Journal) (r : List Journal) (s : State), Live s → s.bench.journal = j :: r →
     (j.doneA = false → Completes (.journalWriteDone true) s (fun t =>
       kget noCopy t.bench.mramA j.seg = j.copy ∧ t.bench.mramB = s.bench.mramB ∧ t.bench.journal = { j with doneA := true } :: r ∧
         (∀ k, k ≠ j.seg → kget noCopy t.bench.mramA k = kget noCopy s.bench.mramA k) ∧
         t = { s with sent := [], bench := t.bench })) ∧
     (j.doneA = true → Completes (.journalWriteDone true) s (fun t =>
       kget noCopy t.bench.mramB j.seg = j.copy ∧ t.bench.mramA = s.bench.mramA ∧ t.bench.journal = r ∧
         (∀ k, k ≠ j.seg → kget noCopy t.bench.mramB k = kget noCopy s.bench.mramB k) ∧
         t = { s with sent := [], bench := t.bench })) ∧
     Completes (.journalWriteDone false) s (fun t =>
       t.bench.journal = r ∧ Raised .busError s t ∧ t.base = { s with bench := { s.bench with
           journal := r, mramA := t.bench.mramA, mramB := t.bench.mramB } }.base ∧
         (if j.doneA then t.bench.mramA = s.bench.mramA else t.bench.mramB = s.bench.mramB) ∧
         KeepsRegs (fun a => raiseReg a || a == BEN_JERR_CNT_COUNT.addr) s t ∧
         (kget noCopy (if j.doneA then t.bench.mramB else t.bench.mramA) j.seg).good = false)) ∧
  (∀ (new old : ProgImage) (c : Tick) (order : Nat) (a : Accepted) (s : State), Live s →
     s.bench.changeTo = some (new, c, order) → s.bench.image = some old → s.bench.pstate = .changing →
     (s.accepted.find? fun x => x.order == order) = some a → a.cmd.mirrored = false → hDiscards s a.cmd.ctx = false →
     (cyclesRun s = [] → Completes .changeSwap s (fun t =>
       t.bench.image = some new ∧ t.bench.staged = none ∧ t.bench.changeTo = none ∧ t.bench.pstate = .running ∧
         rd t BEN_PSTAT_PSTATE = 1 ∧ t.bench.idata = newIdata old new s.bench.idata ∧ Completed a .ok t ∧ t.cells = s.cells ∧
         t.conv = s.conv)) ∧
     (cyclesRun s ≠ [] → rd s BEN_CFG_CHG_WAIT ≤ tickDiff s.tick c → Completes .changeTimeout s (fun t =>
       t.bench.image = some old ∧ t.bench.changeTo = none ∧ t.bench.pstate = .running ∧ rd t BEN_PSTAT_PSTATE = 1 ∧
         t.bench.idata = s.bench.idata ∧ t.bench.tasks = s.bench.tasks ∧ Completed a .changeTimeout t ∧ t.cells = s.cells ∧
         t.conv = s.conv)))

/-- Waits of event tasks (R452, R455): a wait met by its flags takes those under its mask as release flags and clears them;
one whose timeout ends first has none. The cycle is released at once and its context is READY; with no executor for it the
cycle is skipped and the task waits again. Executors (R458, R459), with the service contexts brought up to date before and
after: an idle executor takes the first ready context of highest priority; a ready context with no idle executor displaces
the running context of lowest priority, which goes back to the head of its list; a service routine that has used its quantum
goes to the tail of its list and frees its executor. A flow that has held items for STALL_TICKS without a release, and not
for its full ring alone, raises FOREMAN_STALL once (R467). The model's own part: log entry 42. -/
def Obligations.ExecutorWaits : Prop :=
  (∀ (c : Fin 256) (d : TaskDef) (s : State), Live s → eventWaits s c = true → taskDef s c = some d →
     let x := fctx s c
     let met := waitMet x.flags x.wmask x.all
     (met = true → Completes (.waitSatisfied c) s (fun t =>
       (fctx t c).flags = x.flags &&& ~~~x.wmask ∧ (fctx t c).rel = x.flags &&& x.wmask ∧ (fctx t c).tmo = false ∧
         (∀ k, k ≠ c.val → fctx t k = fctx s k) ∧
         (canRun s d = true → (fctx t c).st = .ready ∧ (task t c).running = some (s.tick, s.time) ∧
           t.fmn.ready = s.fmn.ready ++ [(x.prio, c.val)]) ∧
         (canRun s d = false → (fctx t c).st = .waiting ∧ t.bench = s.bench) ∧ t.cells = s.cells ∧ t.conv = s.conv ∧ t.sent = [])) ∧
     (met = false → x.left = 0 → Completes (.waitTimeout c) s (fun t =>
       (fctx t c).flags = x.flags ∧ (fctx t c).rel = 0 ∧ (fctx t c).tmo = true ∧ (∀ k, k ≠ c.val → fctx t k = fctx s k) ∧
         (canRun s d = true → (fctx t c).st = .ready ∧ (task t c).running = some (s.tick, s.time) ∧
           t.fmn.ready = s.fmn.ready ++ [(x.prio, c.val)]) ∧
         (canRun s d = false → (fctx t c).st = .waiting ∧ t.bench = s.bench) ∧ t.cells = s.cells ∧ t.conv = s.conv ∧ t.sent = []))) ∧
  (∀ s : State, Live s →
     let s1 := sync { s with sent := [] }
     (∀ (e : Fin 16) c, execUsable s1 e = true → onExec s1 e = none → firstReady s1 e = some c → Completes (.dispatch e) s (fun t =>
       t = sync (runOn c e s1) ∧ (c < 96 → (fctx t c).st = .running ∧ (fctx t c).exec = e.val ∧ onExec t e = some c) ∧
         t.cells = s.cells ∧ t.conv = s.conv)) ∧
     (∀ (c : Fin 256) v, (fctx s1 c).st = .ready →
       (∀ e, e < 16 → (fctx s1 c).affinity.getLsbD e = true → execUsable s1 e = true → (onExec s1 e).isSome = true) →
       victim s1 c = some v → (fctx s1 c).prio < (fctx s1 v).prio → Completes (.preemption c) s (fun t =>
         t = sync (runOn c (fctx s1 v).exec (makeReadyHead v (setExec (fctx s1 v).exec none (count FMN_PREEMPT_CNT_COUNT s1)))) ∧
           (c.val < 96 → (fctx t c).st = .running ∧ (fctx t c).exec = (fctx s1 v).exec) ∧ (v < 96 → (fctx t v).st = .ready) ∧
           t.cells = s.cells ∧ t.conv = s.conv)) ∧
     (∀ c : Fin 256, 96 ≤ c.val → (fctx s c).st = .running → Completes (.serviceQuantumEnd c) s (fun t =>
       t = sync (makeReady c (leaveExec c { s with sent := [] })) ∧
         (onExec s (fctx s c).exec = some c.val → onExec t (fctx s c).exec = none) ∧ t.cells = s.cells ∧ t.conv = s.conv)) ∧
     (∀ f : Fin 48, (kget ({} : FlowSt) s.fmn.flows f.val).stalled = false →
       rd s FMN_CFG_STALL_TICKS ≤ (kget ({} : FlowSt) s.fmn.flows f.val).idle → flowItems s f ≠ 0 → ringHeld s f = false →
       Completes (.foremanStall f) s (fun t =>
         Raised .foremanStall s t ∧ RaiseFrame s t ∧ (kget ({} : FlowSt) t.fmn.flows f.val).stalled = true)))

/-! The Ledger (chapter 17). -/

/-- Arming and disarming (R477, R484): each unit named is armed or disarmed and LDG_ARM shows it; an armed unit named by
LDG_ARM, and every unit not named, stays as it is; no segment changes. A hold-off time that ends is over (R478). Firings
(R477 to R482). An armed unit that fires, by its condition, a fault record or LDG_FIRE, outside its hold-off and with room
in the segment area, makes one segment with the next number that names the unit, the instant and the cause; in its hold-off
it makes none; with no unit of those LDG_FIRE names armed nothing happens. The streams (R473, R474, R482): a configuration
in range, moving the rings only with both streams off and leaving the area for segments, is taken, and a stream that it
starts begins with an empty ring; another is refused. A sample lost in staging leaves its place in its ring, raises
LEDGER_OVERFLOW and, in the channel stream, marks the next sample. The model's own part: log entries 4, 43. -/
def Obligations.LedgerUnitsAndStreams : Prop :=
  (∀ (v : Word) (s : State),
     (Writable 0x70008 s → Completes (.ldgArm v) s (fun t =>
       (∀ u, u < 32 → v.getLsbD u = true → (trig t u).armed = true ∧ ((trig s u).armed = true → trig t u = trig s u) ∧
         ((trig s u).armed = false → rdBit t LDG_ARM_ARM u = true)) ∧
       (∀ u, ¬ (u < 32 ∧ v.getLsbD u = true) → trig t u = trig s u) ∧ t.ledger.segs = s.ledger.segs ∧
       t = { s with sent := [], regs := t.regs, ledger := t.ledger } ∧ KeepsRegs (fun a => a == LDG_ARM_ARM.addr) s t)) ∧
     (Writable 0x7000C s → Completes (.ldgDisarm v) s (fun t =>
       (∀ u, u < 32 → v.getLsbD u = true → (trig t u).armed = false ∧ (trig t u).fires = [] ∧ rdBit t LDG_ARM_ARM u = false) ∧
       (∀ u, ¬ (u < 32 ∧ v.getLsbD u = true) → trig t u = trig s u) ∧ t.ledger.segs = s.ledger.segs ∧
       t = { s with sent := [], regs := t.regs, ledger := t.ledger } ∧ KeepsRegs (fun a => a == LDG_ARM_ARM.addr) s t)) ∧
     (∀ (u : Fin 32) x, Live s → (trig s u).holdTill = some x → Completes (.holdoffEnd u) s (fun t =>
       trig t u = { trig s u with holdTill := none } ∧ (∀ k, k ≠ u.val → trig t k = trig s k) ∧
         t = { s with sent := [], time := max s.time x, ledger := t.ledger } ∧ t.ledger.segs = s.ledger.segs))) ∧
  (∀ s : State,
     let room := fun (u : Nat) =>
       let e := trEntry s u
       let need := 64 + trN e * (if trStream e then snapBytes (liveMode s) else chanSize s)
       streamsAsleep s = false ∧ filling s (trStream e) < (if trStream e then 2 else 64) ∧ s.ledger.segs.length < 65536 ∧
         ((segUsed s + need : Nat) : Int) ≤ segAreaNow s
     let makes := fun (u : Nat) (f : TrigFire) (host : Bool) (t : State) =>
       (∃ g, t.ledger.segs = s.ledger.segs ++ [g] ∧ g.segid = s.ledger.nextSeg ∧ g.unit = u ∧ g.tstamp = f.at_ ∧ g.rHost = host ∧
         g.rCond = f.cond ∧ g.rFault = f.fault ∧ g.value = f.value ∧ g.ttick = (if s.markAt ≤ f.at_ then s.tick else s.tick - 1) ∧
         g.stream = trStream (trEntry s u) ∧ g.reserved = 64 + trN (trEntry s u) * g.sampSz) ∧
         t.ledger.nextSeg = s.ledger.nextSeg + 1 ∧ (trig t u).armed = trAuto (trEntry s u) ∧ t.cells = s.cells ∧ t.conv = s.conv
     (∀ (u : Fin 32) f r, Live s → (trig s u).fires = f :: r → (trig s u).armed = true →
       (holds (trig s u) f.at_ = false → room u → Completes (.ledgerTriggerFire u) s (makes u f false)) ∧
       (holds (trig s u) f.at_ = true → Completes (.ledgerTriggerFire u) s (fun t =>
         t.ledger.segs = s.ledger.segs ∧ (trig t u).fires = r ∧ (trig t u).armed = true ∧
           KeepsRegs (fun a => a == (LDG_THOLD_COUNT u).addr) s t ∧ t.cells = s.cells ∧ t.conv = s.conv))) ∧
     (∀ (u : Fin 32) (v : Word), Writable 0x70010 s → (trig s u).armed = true → (trig s u).fires = [] →
       holds (trig s u) s.time = false → room u → v.getLsbD u = true →
       (∀ k, k < 32 → k ≠ u.val → v.getLsbD k = true → (trig s k).armed = false ∧ (trig s k).fires = []) →
       Completes (.ldgFire v) s (makes u { at_ := s.time } true)) ∧
     (∀ v : Word, Writable 0x70010 s → (∀ u, u < 32 → v.getLsbD u = true → (trig s u).armed = false ∧ (trig s u).fires = []) →
       Completes (.ldgFire v) s (Unchanged s))) ∧
  (∀ s : State,
     (∀ v : Word, Writable 0x70000 s →
       let f := fun (x : Field) => v.toNat / 2 ^ x.lo % 2 ^ x.width
       let sd := f LDG_CFG_SNAP_DEPTH
       let cd := f LDG_CFG_CHAN_DEPTH
       let pool := f LDG_CFG_POOL
       let moved := pool ≠ rd s LDG_CFG_POOL ∨ sd ≠ rd s LDG_CFG_SNAP_DEPTH ∨ cd ≠ rd s LDG_CFG_CHAN_DEPTH
       let on := rdB s LDG_CFG_SNAP_EN = true ∨ rdB s LDG_CFG_CHAN_EN = true
       let range := 10 ≤ sd ∧ 10 ≤ cd ∧ 1 ≤ pool ∧ pool ≤ 28 ∧ sd ≤ 16 ∧ cd ≤ 16
       (range → ¬ (moved ∧ on) → 2 ^ 28 ≤ segArea s pool sd cd → Completes (.ldgCfgWrite v) s (fun t =>
         (∀ x ∈ [LDG_CFG_SNAP_EN, LDG_CFG_CHAN_EN, LDG_CFG_SNAP_DEPTH, LDG_CFG_CHAN_DEPTH, LDG_CFG_POOL, LDG_CFG_OVF], rd t x = f x) ∧
           (f LDG_CFG_SNAP_EN = 1 → rdB s LDG_CFG_SNAP_EN = false → t.ledger.snapRing = []) ∧
           (f LDG_CFG_CHAN_EN = 1 → rdB s LDG_CFG_CHAN_EN = false → t.ledger.chanRing = []) ∧
           (rdB s LDG_CFG_SNAP_EN = true → t.ledger.snapRing = s.ledger.snapRing) ∧
           (rdB s LDG_CFG_CHAN_EN = true → t.ledger.chanRing = s.ledger.chanRing) ∧ t.cells = s.cells ∧ t.conv = s.conv)) ∧
       (¬ range ∨ (moved ∧ on) ∨ segArea s pool sd cd < 2 ^ 28 → Completes (.ldgCfgWrite v) s (fun t =>
         rdB t LDG_STATUS_WRERR = true ∧ OnlyRegs [LDG_STATUS_WRERR.addr] s t))) ∧
     (∀ (chan : Bool) (n : Tick) (b : List Byte) (r : List (Tick × List Byte)), Live s → b ≠ [] →
       (if chan then s.ledger.chanRing else s.ledger.snapRing) = (n, b) :: r → Completes (.ledgerSampleLost chan) s (fun t =>
         (if chan then t.ledger.chanRing else t.ledger.snapRing) = (n, []) :: r ∧
           (if chan then t.ledger.snapRing = s.ledger.snapRing else t.ledger.chanRing = s.ledger.chanRing) ∧
           (chan = true → t.ledger.gapNextC = true) ∧ t.ledger.segs.length = s.ledger.segs.length ∧ Raised .ledgerOverflow s t ∧
           KeepsRegs (fun a => raiseReg a || a == LDG_GAP_CNT_COUNT.addr) s t ∧ t.base = s.base)))

/-! Host contexts and commands (chapter 18). -/

/-- Doorbells (R489, R490, R492). SQ_TAIL and CQ_HEAD take an index that lies within their ring and, for CQ_HEAD, does not
pass an entry not written; another index is a protocol error: the context is in ERROR with its ERRCODE, its waiting
completions and events are discarded, and HOST_PROTOCOL is raised. A context that is OFF or in ERROR takes no doorbell. A
descriptor is fetched while the context may (R464, R489, R493, R494): it joins the submission flow as read, a bad DCRC as
BAD_DESC with byte 62, SQ_HEAD moves on by one and the command is in flight; else nothing happens. A released item of the
completion flow is written at the tail of the ring while it has room, an event with an extension in two entries (R491), and
the tail moves on (R490, R502); a full ring holds it; a draining context posts no events (R511). COAL_US after the first
unsignalled entry the vector is raised (R509). The model's own part: log entry 46. -/
def Obligations.HostRings : Prop :=
  (∀ (n : CtxIx) (v : Word) (s : State), Live s →
     let i := v.toNat % 4096
     let runs := hstate s n = hRun ∨ hstate s n = hDraining
     let size := cqSize s n
     let h := (hctx s n).cqHead
     let written := (rd s (HST_CQTAIL_TAIL n) + size - h) % size
     let others := fun (t : State) => (∀ k, k ≠ n.val → hctx t k = hctx s k) ∧ t.cells = s.cells ∧ t.conv = s.conv
     let fails := fun (code : Nat) (t : State) =>
       hstate t n = hError ∧ rd t (HST_STAT_ERRCODE n) = code ∧ hctx t n = { hctx s n with out := [] } ∧ Raised .hostProtocol s t ∧
         (∀ k, k ≠ n.val → hctx t k = hctx s k) ∧ KeepsCells s t ∧ t.conv = s.conv ∧
         (rdB s (HST_IRQ_XEN n) = true → .msix n 2 ∈ t.sent)
     (runs → i < sqSize s n → Completes (.sqTail n v) s (fun t =>
       hctx t n = { hctx s n with sqTail := i } ∧ hstate t n = hstate s n ∧ others t)) ∧
     (runs → sqSize s n ≤ i → Completes (.sqTail n v) s (fails 1)) ∧
     (runs → i < size → (i + size - h) % size ≤ written → Completes (.cqHead n v) s (fun t =>
       hctx t n = { hctx s n with cqHead := i } ∧ hstate t n = hstate s n ∧ others t)) ∧
     (runs → size ≤ i → Completes (.cqHead n v) s (fails 2)) ∧
     (runs → i < size → written < (i + size - h) % size → Completes (.cqHead n v) s (fails 3)) ∧
     (∀ (reason : Fin 7) addr, runs → reason ≠ 0 → Completes (.hostProtocol n reason addr) s (fails reason)) ∧
     (hstate s n = hOff ∨ hstate s n = hError →
       Completes (.sqTail n v) s (Unchanged s) ∧ Completes (.cqHead n v) s (Unchanged s))) ∧
  (∀ (n : CtxIx) (s : State), Live s →
     let tail := rd s (HST_CQTAIL_TAIL n)
     let next := (if tail + 1 = cqSize s n then 0 else tail + 1) % 4096
     let posts := hstate s n = hRun ∨ hstate s n = hDraining
     (∀ b body : List Byte, b.length = 64 →
       (mayFetch s n = true → Completes (.descriptorFetch n b body) s (fun t =>
         hctx t n = { hctx s n with sub := (hctx s n).sub ++ [readDesc n b body] } ∧
           rd t (HST_SQHEAD_HEAD n) = (if rd s (HST_SQHEAD_HEAD n) + 1 = sqSize s n then 0 else rd s (HST_SQHEAD_HEAD n) + 1) % 4096 ∧
           rd t (HST_STAT_INFLIGHT n) = rd s (HST_STAT_INFLIGHT n) + 1 ∧ rd t FMN_STATUS_INFLIGHT = rd s FMN_STATUS_INFLIGHT + 1 ∧
           (crc crc16 (b.take 62) ≠ fld b 62 0 16 →
             (readDesc n b body).cmd = none ∧ ∃ c, (readDesc n b body).bad = some c ∧ c.status = .badDesc ∧ c.info = [62]) ∧
           (∀ k, k ≠ n.val → hctx t k = hctx s k) ∧ t.cells = s.cells ∧ t.conv = s.conv)) ∧
       (mayFetch s n = false → Completes (.descriptorFetch n b body) s (Unchanged s))) ∧
     (∀ d r, (hctx s n).out = .completion d :: r → posts → hDiscards s n = false →
       (1 ≤ cqRoom s n → Completes (.completionWrite n) s (fun t =>
         (hctx t n).out = r ∧ (hctx t n).cseq = (hctx s n).cseq + 1 ∧ rd t (HST_CQTAIL_TAIL n) = next ∧
           .ringEntry n tail (completionBytes d (rdB s (HST_CQTAIL_PHASE n)) (hctx s n).cseq s.time) ∈ t.sent ∧
           (∀ x, d.result = some x → .hostData n x.1 x.2 ∈ t.sent) ∧ t.cells = s.cells ∧ t.conv = s.conv)) ∧
       (cqRoom s n = 0 → Completes (.completionWrite n) s (Unchanged s))) ∧
     (∀ e r, (hctx s n).out = .event e :: r → hstate s n = hRun →
       ((if e.ext then 2 else 1) ≤ cqRoom s n → Completes (.completionWrite n) s (fun t =>
         (hctx t n).out = r ∧ (hctx t n).cseq = (hctx s n).cseq + 1 ∧ (e.ext = false → rd t (HST_CQTAIL_TAIL n) = next) ∧
           .ringEntry n tail (eventBytes e (rdB s (HST_CQTAIL_PHASE n)) (hctx s n).cseq) ∈ t.sent ∧
           (e.ext = true → .ringEntry n (phaseAfter s n).1 (extBytes e (phaseAfter s n).2) ∈ t.sent) ∧
           t.cells = s.cells ∧ t.conv = s.conv)) ∧
       (cqRoom s n < (if e.ext then 2 else 1) → Completes (.completionWrite n) s (Unchanged s))) ∧
     (∀ e r, (hctx s n).out = .event e :: r → hstate s n = hDraining → rd s (HST_STAT_ERRCODE n) = 0 →
       Completes (.completionWrite n) s (fun t =>
         hctx t n = { hctx s n with out := r } ∧ t.sent = [] ∧ t.cells = s.cells ∧ t.conv = s.conv)) ∧
     (∀ (events : Bool) k, (if events then (hctx s n).irqEAt else (hctx s n).irqCAt) = some k → rd s (HST_IRQ_COAL_US n) ≠ 0 →
       (if events then rdB s (HST_IRQ_EEN n) else rdB s (HST_IRQ_CEN n)) = true → Completes (.msixCoalesceTimeout n events) s (fun t =>
         t.sent = [.msix n (bitNat events)] ∧ t.time = max s.time (k + rd s (HST_IRQ_COAL_US n) * 1000) ∧ t.regs = s.regs ∧
           (if events then (hctx t n).irqE = 0 ∧ (hctx t n).irqEAt = none else (hctx t n).irqC = 0 ∧ (hctx t n).irqCAt = none) ∧
           (∀ m, m ≠ n.val → hctx t m = hctx s m) ∧ t.cells = s.cells ∧ t.conv = s.conv)))

/-- Contexts (R510 to R512): in SETUP and RUN an OFF context with its function enabled and its rings placed attaches to
empty rings, and with any of these wrong the write is refused; a detach drains it, its unreleased commands leaving the
submission flow with completions ABORTED; with nothing in flight it is OFF; a function's reset puts its contexts OFF at once
and leaves the others. The model's own part: log entry 46. -/
def Obligations.ContextsComeAndGo : Prop :=
  ∀ (n : CtxIx) (vf : Bool) (s : State), Live s →
    let placed := (n.val = 0 ∨ vf = true) ∧ rd s (HST_SQBASE_LO_A n) % 4096 = 0 ∧ rd s (HST_CQBASE_LO_A n) % 4096 = 0 ∧
      4 ≤ rd s (HST_RING_SQ_LOG n) ∧ rd s (HST_RING_SQ_LOG n) ≤ 12 ∧ 4 ≤ rd s (HST_RING_CQ_LOG n) ∧ rd s (HST_RING_CQ_LOG n) ≤ 12
    (s.dev = .setup ∨ s.dev = .run → hstate s n = hOff → placed → Completes (.contextAttach n vf) s (fun t =>
      hstate t n = hRun ∧ rdB t (HST_CTRL_EN n) = true ∧ rd t (HST_STAT_ERRCODE n) = 0 ∧ rd t (HST_SQHEAD_HEAD n) = 0 ∧
        rd t (HST_CQTAIL_TAIL n) = 0 ∧ rdB t (HST_CQTAIL_PHASE n) = true ∧ (hctx t n).sqTail = 0 ∧ (hctx t n).cqHead = 0 ∧
        (hctx t n).cseq = 0 ∧ (hctx t n).out = [] ∧ (hctx t n).vfOn = vf ∧ (∀ k, k ≠ n.val → hctx t k = hctx s k) ∧
        t.cells = s.cells ∧ t.conv = s.conv)) ∧
    (s.dev = .setup ∨ s.dev = .run → hstate s n ≠ hRun → (hstate s n ≠ hOff ∨ ¬ placed) → Completes (.contextAttach n vf) s (fun t =>
      rdB t (HST_STAT_WRERR n) = true ∧ OnlyRegs [(HST_STAT_WRERR n).addr] s t)) ∧
    (hstate s n = hRun ∨ hstate s n = hError → Completes (.contextDetach n) s (fun t =>
      hstate t n = hDraining ∧ rdB t (HST_CTRL_EN n) = false ∧ (hctx t n).sub = [] ∧ (∀ k, k ≠ n.val → (hctx t k).sub = (hctx s k).sub) ∧
        t.accepted = s.accepted ∧ t.cells = s.cells ∧ t.conv = s.conv ∧
        (rd s (HST_STAT_ERRCODE n) = 0 → (∀ i ∈ (hctx s n).sub, ∀ c, i.cmd = some c → c.ctx = n.val ∧ c.mirrored = false) →
          ∃ l : List Completion, (hctx t n).out = (hctx s n).out ++ l.map .completion ∧ (∀ c ∈ l, c.status = .aborted) ∧
            l.length = ((hctx s n).sub.filter fun i => i.cmd.isSome || i.bad.isSome).length))) ∧
    (hstate s n = hDraining → rd s (HST_STAT_INFLIGHT n) = 0 → Completes (.drainComplete n) s (fun t =>
      hstate t n = hOff ∧ (hctx t n).out = [] ∧ (∀ k, k ≠ n.val → hctx t k = hctx s k) ∧ t.accepted = s.accepted ∧
        t.cells = s.cells ∧ t.conv = s.conv)) ∧
    (∀ k : ResetKind, Completes (.functionReset k) s (fun t =>
      (∀ m, m ∈ resetContexts k →
        hstate t m = hOff ∧ rdB t (HST_CTRL_EN m) = false ∧ (hctx t m).sub = [] ∧ (hctx t m).out = [] ∧ (hctx t m).vfOn = false) ∧
      (∀ m, m < 16 → m ∉ resetContexts k → hstate t m = hstate s m ∧ hctx t m = hctx s m) ∧
      (∀ a ∈ s.accepted, a.cmd.opc.timed = true ∨ a.cmd.mirrored = true → a ∈ t.accepted) ∧ t.cells = s.cells ∧ t.conv = s.conv))

/-- Flows (R58, R460, R461, R466, R467, R505). An event that finds its flow full merges with the newest of its kind and
data, whose merge count rises by one, or else joins the reserve; the first time in a tick that the reserve is then full
raises FOREMAN_STALL; a released event moves to the completion flow of every context in RUN whose mask names its group; a
descriptor that failed its checks is released into its completion; the release of a completion flow writes its oldest item
to the ring; the staging step writes up to 2,000 bytes of one open batch. The model's own part: log entry 42. -/
def Obligations.FlowsRelease : Prop :=
  ∀ s : State, Live s →
    (∀ (g : Fin 6) (e : DevEvent),
      let q := kget ({} : EventFlow) s.fmn.evq g.val
      let same := fun (x : DevEvent) => x.ecode = e.ecode ∧ x.data = e.data
      let f := fun (t : State) => kget ({} : EventFlow) t.fmn.evq g.val
      let quiet := fun (t : State) => (64 ≤ (placeEvent e q).reserve.length → q.raised = true) →
        (f t).raised = q.raised ∧ (∀ j, j < 47 → latched t j = latched s j) ∧ (∀ k, k ≠ g.val → evQueue t k = evQueue s k) ∧
          (f t).queue = (placeEvent e q).queue ∧ (f t).reserve = (placeEvent e q).reserve ∧ t.cells = s.cells ∧ t.conv = s.conv
      Completes (.eventFlowFull g e) s (fun t => quiet t ∧
        (64 ≤ (placeEvent e q).reserve.length → q.raised = false →
          (f t).raised = true ∧ (f t).reserve = (placeEvent e q).reserve ∧ Raised .foremanStall s t ∧ KeepsCells s t ∧ t.conv = s.conv)) ∧
      ((∃ x ∈ q.queue ++ q.reserve, same x) →
        (placeEvent e q).queue.map (fun x => { x with mcnt := 0 }) = q.queue.map (fun x => { x with mcnt := 0 }) ∧
          (placeEvent e q).reserve.map (fun x => { x with mcnt := 0 }) = q.reserve.map (fun x => { x with mcnt := 0 }) ∧
          (((placeEvent e q).queue ++ (placeEvent e q).reserve).map (·.mcnt)).sum = ((q.queue ++ q.reserve).map (·.mcnt)).sum + 1) ∧
      ((∀ x ∈ q.queue ++ q.reserve, ¬ same x) → q.reserve.length < 64 →
        placeEvent e q = { q with reserve := q.reserve ++ [e] }) ∧
      (∀ x r, q.queue = x :: r → Completes (.flowItemRelease ⟨42 + g.val, by omega⟩) s (fun t =>
        evQueue t g = r ++ q.reserve.take 1 ∧ (kget ({} : EventFlow) t.fmn.evq g.val).reserve = q.reserve.drop 1 ∧
          (∀ n, n < 16 → (hctx t n).out = (hctx s n).out ++
            (if hstate s n == hRun && rdBit s (HST_EVMASK_GROUP n) g then [.event x] else [])) ∧ t.cells = s.cells ∧
          t.conv = s.conv))) ∧
    (∀ (n : CtxIx) (x : SubItem) (b : Completion) r, (hctx s n).sub = x :: r → x.cmd = none → x.bad = some b → hDiscards s n = false →
      Completes (.flowItemRelease ⟨n.val, by omega⟩) s (fun t =>
        (hctx t n).sub = r ∧ (hctx t n).out = (hctx s n).out ++ [.completion (badCompletion s b)] ∧ t.accepted = s.accepted ∧
          t.cells = s.cells ∧ t.conv = s.conv)) ∧
    (∀ n : CtxIx, Completes (.flowItemRelease ⟨16 + n.val, by omega⟩) s (fun t =>
      ∃ u, exec (.completionWrite n) s = .next u ∧ t = sync u)) ∧
    (let open_ := s.batches.filter fun b => decide (b.staged < b.body.length)
      let staged := fun (x : Batch) (t : State) =>
        t.batches = s.batches.map (fun b => if b.order = x.order then { b with staged := min b.body.length (b.staged + 2000) } else b) ∧
          t.tabs = s.tabs ∧ t.cells = s.cells ∧ t.conv = s.conv
      (open_ = [] → Completes .batchStagingStep s (Unchanged s)) ∧
      (open_ ≠ [] → Completes .batchStagingStep s (fun t => ∃ x ∈ open_, staged x t)) ∧
      (∀ x y, open_ = [x, y] → Completes .batchStagingStep s (staged (if tickGe y.mark x.mark then x else y))))

/-- Admission (R463, R487, R498, R499). A command of the host at the head of its context's submission flow that meets no
ground of refusal is accepted by its row for its effective tick, last in order of acceptance, and a batch waits for staging
with that commit mark; one whose class the context may not use completes with DENIED and is not accepted; the release of the
context's flow does the same. The model's own part: log entry 44. -/
def Obligations.HostAdmission : Prop :=
  ∀ (o : Opcode) (n : CtxIx) (tag : BitVec 16) (x : SubItem) (c : HostCmd) (r : List SubItem) (s : State), Live s →
    (hctx s n).sub = x :: r → x.cmd = some c → c.opc = o → c.ctx = n.val → c.tag = tag → dueHost s o n.val tag = none →
    let s1 := flowReleased n (modHctx n (fun k => { k with sub := r }) { s with sent := [] })
    let tick := effective s1 c
    (Admissible s1 c → Completes (hostInstr o n tag) s (fun t =>
      (hctx t n).sub = r ∧ (hctx t n).out = (hctx s n).out ∧ t.accCount = s.accCount + 1 ∧
        (∃ b, t.accepted = s.accepted ++ [{ cmd := c, tick := tick, order := s.accCount, begun := b }]) ∧
        t.batches = s.batches ++ (if o = .stageBatch then
          [{ mark := tick, order := s.accCount, body := c.body, ctx := c.ctx, tag := c.tag }] else []) ∧
        t.cells = s.cells ∧ t.conv = s.conv ∧ t.tabs = s.tabs)) ∧
    (∀ k, c.opc.cls = some k → rdBit s (HST_PERM_CLASS n) k = false → (o = .imgSlice → fld c.param 4 0 32 + c.len ≤ 2 ^ 26) →
      hDiscards s n = false → c.mirrored = false → Completes (hostInstr o n tag) s (fun t =>
        (hctx t n).sub = r ∧ t.accepted = s.accepted ∧ t.batches = s.batches ∧
          (∃ d, (hctx t n).out = (hctx s n).out ++ [.completion d] ∧ d.tag = tag ∧ d.status = .denied ∧ d.etick = s.tick) ∧
          t.cells = s.cells ∧ t.conv = s.conv ∧ t.tabs = s.tabs)) ∧
    exec (.flowItemRelease ⟨n.val, by omega⟩) s = exec (hostInstr o n tag) s

/-- NOP, the cell forces and the variable forces (R307, R309, R310, R439): a cell that is neither FAULTED nor BYPASSED takes
the forced state, unforcing frees one cell or all, a variable's force replaces an earlier one of it and is taken back by its
id or with all others. Each completes with OK and touches nothing else of the cells and the bench. Programs (R435, R438,
R440): PROG_STOP leaves every task without a cycle; a cold start of a stopped program takes the staged image, or the one in
force, with its initial data and no forces; a warm start without a good copy of a segment starts nothing; PROG_CHANGE of a
running program begins the change to the staged image, and one that can no longer be made completes with CHANGE_TIMEOUT. The
model's own part: log entries 5, 40, 45. -/
def Obligations.ForcesAndPrograms : Prop :=
  (∀ (n : CtxIx) (tag : BitVec 16) (a : Accepted) (s : State),
     let addr := fld a.cmd.param 0 0 16
     let id : Word := BitVec.ofNat 32 (fld a.cmd.param 0 0 32)
     let av := (cell s addr).ent.avail
     let same := fun (t : State) => t.conv = s.conv ∧ t.dev = s.dev ∧ t.role = s.role ∧ t.tabs = s.tabs
     (DueRow s .nop n tag a → Completes (.nop n tag) s (fun t =>
       Completed a .ok t ∧ same t ∧ t.cells = s.cells ∧ t.bench = s.bench)) ∧
     (DueRow s .cellForce n tag a → av ≠ .faulted → av ≠ .bypassed → Completes (.cellForce n tag) s (fun t =>
       Completed a .ok t ∧ same t ∧ (cell t addr).dyn.forcedTo = some (BitVec.ofNat 4 (fld a.cmd.param 2 0 8)) ∧
         (cell t addr).ent = (cell s addr).ent ∧ (∀ b, b ≠ addr → cell t b = cell s b) ∧ t.bench = s.bench)) ∧
     (DueRow s .cellForce n tag a → av = .faulted ∨ av = .bypassed → Completes (.cellForce n tag) s (fun t =>
       Completed a .ok t ∧ same t ∧ t.cells = s.cells ∧ t.bench = s.bench)) ∧
     (DueRow s .cellUnforce n tag a → Completes (.cellUnforce n tag) s (fun t =>
       Completed a .ok t ∧ same t ∧ t.bench = s.bench ∧ (∀ b, (cell t b).ent = (cell s b).ent) ∧
         (addr = 0xFFFF → ∀ b, (cell t b).dyn.forcedTo = none) ∧
         (addr ≠ 0xFFFF → (cell t addr).dyn.forcedTo = none ∧ ∀ b, b ≠ addr → cell t b = cell s b))) ∧
     (DueRow s .varForce n tag a → Completes (.varForce n tag) s (fun t =>
       Completed a .ok t ∧ same t ∧ t.cells = s.cells ∧
         t.bench = { s.bench with forces := (s.bench.forces.filter fun x => x.id != id) ++
           [{ id := id, value := BitVec.ofNat 32 (fld a.cmd.param 4 0 32), qual := BitVec.ofNat 3 (fld a.cmd.param 8 0 3), act := a.tick }] } ∧
         rd t BEN_NFORCE_N = t.bench.forces.length % 2 ^ BEN_NFORCE_N.width)) ∧
     (DueRow s .varUnforce n tag a → Completes (.varUnforce n tag) s (fun t =>
       Completed a .ok t ∧ same t ∧ t.cells = s.cells ∧
         t.bench = { s.bench with forces := if id = 0xFFFFFFFF then [] else s.bench.forces.filter fun x => x.id != id } ∧
         rd t BEN_NFORCE_N = t.bench.forces.length % 2 ^ BEN_NFORCE_N.width))) ∧
  (∀ (n : CtxIx) (tag : BitVec 16) (a : Accepted) (s : State),
     (DueRow s .progStop n tag a → (∀ x, s.bench.changeTo = some x → x.2.2 ≠ a.order) → Completes (.progStop n tag) s (fun t =>
       Completed a .ok t ∧ t.bench.pstate = .stopped ∧ rd t BEN_PSTAT_PSTATE = 0 ∧ (∀ k, (task t k).running = none) ∧
         t.bench.changeTo = none ∧ t.bench.image = s.bench.image ∧ t.bench.idata = s.bench.idata ∧ t.cells = s.cells ∧
         t.conv = s.conv)) ∧
     (∀ img : ProgImage, DueRow s .progStart n tag a → s.closeDone = some s.tick → s.bench.pstate = .stopped →
       s.bench.staged.or s.bench.image = some img →
       (fldB a.cmd.param 0 0 = false → Completes (.progStart n tag) s (fun t =>
         Completed a .ok t ∧ t.bench.pstate = .running ∧ rd t BEN_PSTAT_PSTATE = 1 ∧ t.bench.image = some img ∧ t.bench.staged = none ∧
           t.bench.idata = img.idata ∧ t.bench.forces = [] ∧ t.cells = s.cells ∧ t.conv = s.conv)) ∧
       (∀ g, fldB a.cmd.param 0 0 = true → ((segsOf img).mergeSort.find? fun g => (retainCopy s img g).isNone) = some g →
         Completes (.progStart n tag) s (fun t =>
           Completed a .retainInvalid t ∧ t.bench = s.bench ∧ t.cells = s.cells ∧ t.conv = s.conv))) ∧
     (∀ img : ProgImage, DueRow s .progChange n tag a → s.closeDone = some s.tick → s.bench.pstate = .running → s.bench.staged = some img →
       Completes (.progChange n tag) s (fun t =>
         t.bench = { s.bench with pstate := .changing, changeTo := some (img, a.tick, a.order) } ∧ rd t BEN_PSTAT_PSTATE = 2 ∧
           (t.accepted.find? fun x => x.order == a.order) = some { a with begun := true } ∧ t.cells = s.cells ∧ t.conv = s.conv)) ∧
     (DueRow s .progChange n tag a → s.closeDone = some s.tick → s.bench.pstate ≠ .running ∨ s.bench.staged = none →
       Completes (.progChange n tag) s (fun t =>
         Completed a .changeTimeout t ∧ t.bench = s.bench ∧ t.cells = s.cells ∧ t.conv = s.conv)))

/-- The converter's commands at a mark that is sent and had no reaction (R28 to R31, R129, R130, R602): DEBLOCK,
BLOCK_ORDERLY, BLOCK and BLOCK_ACK change the state where the state permits it, with the block set for BLOCK on lit lanes,
and are INHIBITED otherwise, leaving it, a DEBLOCK with the first condition that fails (R30); a device that follows leaves
its state to its partner and inhibits its own. LANE_START lights the enabled lanes of a DORMANT converter; LANE_STOP darkens
them and makes it DORMANT. RATE_CHANGE in WATCH to full rate, or in READY to Watch, fixes the switch mark 16 marks after its
first set, which leaves at once where no mark lies between (R61, R136). SWITCHOVER completes with OK on a device that is no
longer ACTIVE two ticks after its switch mark, and is INHIBITED where the lasers were not released (R392). The model's own
part: log entries 5, 45, 56, 68. -/
def Obligations.ConverterCommands : Prop :=
  (∀ (n : CtxIx) (tag : BitVec 16) (a : Accepted) (s : State), rdB s CLK_STATUS_BYPASS = false → s.fcl.markReacted = false →
     let moves := fun (c : ConvState) (t : State) => Completed a .ok t ∧ t.conv = c ∧ KeepsCells s t ∧ t.dev = s.dev
     let stays := fun (t : State) => Completed a .inhibited t ∧ t.conv = s.conv ∧ t.cells = s.cells ∧ t.dev = s.dev ∧
       t.lanesOn = s.lanesOn ∧ t.watch = s.watch
     (follows s = false → DueRow s .deblock n tag a →
       (deblockFault s = 0 → Completes (.deblock n tag) s (moves .deblocked)) ∧
       (deblockFault s ≠ 0 → Completes (.deblock n tag) s (fun t => stays t ∧ HasInfo a [BitVec.ofNat 8 (deblockFault s)] t))) ∧
     (follows s = false → DueRow s .blockOrderly n tag a →
       (s.conv = .deblocked → Completes (.blockOrderly n tag) s (moves .ready)) ∧
       (s.conv ≠ .deblocked → Completes (.blockOrderly n tag) s stays)) ∧
     (follows s = false → DueRow s .block n tag a →
       (s.conv = .watch ∨ s.conv = .ready ∨ s.conv = .deblocked → Completes (.block n tag) s (fun t =>
         moves .blocked t ∧ (s.lanesOn = true → .ordered (blockPos s) blockSyms ∈ t.sent))) ∧
       (s.conv = .dormant ∨ s.conv = .blocked ∨ s.conv = .tripped → Completes (.block n tag) s stays)) ∧
     (follows s = false → DueRow s .blockAck n tag a →
       (s.conv = .blocked → blockLatched s = false → Completes (.blockAck n tag) s (moves (if s.watch then .watch else .ready))) ∧
       (s.conv ≠ .blocked ∨ blockLatched s = true → Completes (.blockAck n tag) s stays)) ∧
     (follows s = true →
       (DueRow s .deblock n tag a → Completes (.deblock n tag) s (fun t => stays t ∧ HasInfo a [BitVec.ofNat 8 (deblockFault s)] t)) ∧
       (DueRow s .blockOrderly n tag a → Completes (.blockOrderly n tag) s stays) ∧
       (DueRow s .block n tag a → Completes (.block n tag) s stays) ∧ (DueRow s .blockAck n tag a → Completes (.blockAck n tag) s stays) ∧
       (DueRow s .laneStart n tag a → Completes (.laneStart n tag) s stays) ∧
       (DueRow s .laneStop n tag a → Completes (.laneStop n tag) s stays) ∧
       (DueRow s .rateChange n tag a → Completes (.rateChange n tag) s stays)) ∧
     (follows s = false → DueRow s .laneStart n tag a → s.conv ≠ .dormant ∨ s.litAt.isSome = true → Completes (.laneStart n tag) s stays) ∧
     (follows s = false → DueRow s .laneStart n tag a → s.conv = .dormant → s.litAt = none → Completes (.laneStart n tag) s (fun t =>
       Completed a .ok t ∧ t.conv = .dormant ∧ t.lanesOn = true ∧ t.litAt = some s.markAt ∧ t.misses = 0 ∧
         (∀ l, l < 64 → laneEn s l = true → laneRuns t l = true ∧ rdB t (LNK_STATUS_UP l) = (rd s (LNK_CTRL_LOOP l) == 0)) ∧
         (∀ l, l < 64 → laneEn s l = false → lane t l = lane s l) ∧
         (∀ m, s.numChange = some m → t.numChange = some { m with switchAt := some (watchMarkAt s.markAt) }) ∧ t.cells = s.cells)) ∧
     (follows s = false → DueRow s .laneStop n tag a → s.conv = .dormant ∨ s.conv = .deblocked → Completes (.laneStop n tag) s stays) ∧
     (follows s = false → DueRow s .laneStop n tag a → s.conv ≠ .dormant → s.conv ≠ .deblocked →
       (∀ l o, o ∈ (lane s l).waiting ++ (lane s l).out.map (·.op) → o.owner ≠ .host a.order) →
       (∀ j, s.fwJob = some j → j.order ≠ a.order) → Completes (.laneStop n tag) s (fun t =>
         Completed a .ok t ∧ t.conv = .dormant ∧ t.lanesOn = false ∧ t.watch = false ∧ t.run = none ∧ t.ready = [] ∧
           (∀ l, l < 64 → laneRuns t l = false) ∧ t.pin.txdisG0 = true ∧ t.pin.txdisG1 = true ∧
           (∀ b, (cell t b).ent = (cell s b).ent))) ∧
     (follows s = false → DueRow s .rateChange n tag a →
       ¬ ((fldB a.cmd.param 0 0 = true ∧ s.conv = .ready) ∨ (fldB a.cmd.param 0 0 = false ∧ s.conv = .watch)) →
       Completes (.rateChange n tag) s stays) ∧
     (∀ m : NumChange, follows s = false → DueRow s .rateChange n tag a → s.numChange = some m →
       (fldB a.cmd.param 0 0 = true ∧ s.conv = .ready) ∨ (fldB a.cmd.param 0 0 = false ∧ s.conv = .watch) →
       Completes (.rateChange n tag) s (fun t =>
         let k := rateDelay s s.markAt
         Completed a .ok t ∧ t.conv = s.conv ∧ t.watch = s.watch ∧ t.cells = s.cells ∧
           t.numChange = some { m with switchAt := some (s.markAt + (k + 16) * tickLen s), started := m.started || decide (k = 0) } ∧
           (k = 0 → .ordered 4 (rateSet 16 (m.kind == .rateToWatch)) ∈ t.sent)))) ∧
  (∀ (n : CtxIx) (tag : BitVec 16) (a : Accepted) (s : State),
     (DueRow s .switchover n tag a → follows s = true → 2 ≤ tickDiff s.tick a.tick → Completes (.switchover n tag) s (fun t =>
       Completed a .ok t ∧ t.role = s.role ∧ t.conv = s.conv ∧ t.cells = s.cells)) ∧
     (DueRow s .switchover n tag a → follows s = false → s.role ≠ .active ∨ s.dpx.released = false → Completes (.switchover n tag) s (fun t =>
       Completed a .inhibited t ∧ t.role = s.role ∧ t.conv = s.conv ∧ t.cells = s.cells)) ∧
     (DueRow s .switchover n tag a → (follows s = true ∧ tickDiff s.tick a.tick < 2) ∨ (s.role = .active ∧ s.dpx.released = true) →
       Completes (.switchover n tag) s (fun t => t.accepted = s.accepted ∧ t.role = s.role ∧ t.conv = s.conv ∧ t.cells = s.cells)))

/-- Reads and cell services (R167, R483, R496, R507): SNAP_READ brings the set named as at the newest mark; LEDGER_FETCH
brings the bytes of a complete segment from its offset on, and says NO_SEGMENT or FILLING otherwise; CELL_MBX queues its
operation on the lane of its cell or star, completes with NO_REPLY on dark lanes, and has nothing to do on a device that
follows. The model's own part: log entries 5, 45. -/
def Obligations.ReadsAndCellServices : Prop :=
  ∀ (n : CtxIx) (tag : BitVec 16) (a : Accepted) (s : State),
    (DueRow s .snapRead n tag a → s.closeDone = some s.tick → Completes (.snapRead n tag) s (fun t =>
      Completed a .ok t ∧ HasResult a (snapResult a.cmd s) t ∧ t.cells = s.cells ∧ t.conv = s.conv ∧ t.tabs = s.tabs)) ∧
    (DueRow s .ledgerFetch n tag a → a.order ∉ s.pwr.dramHeld →
      let id := fld a.cmd.param 0 0 16
      ((∀ g ∈ s.ledger.segs, g.segid.toNat ≠ id) → Completes (.ledgerFetch n tag) s (fun t =>
        Completed a .noSegment t ∧ t.ledger = s.ledger)) ∧
      (∀ g, (s.ledger.segs.find? fun g => g.segid.toNat == id) = some g →
        (g.done = false → Completes (.ledgerFetch n tag) s (fun t => Completed a .filling t ∧ t.ledger = s.ledger)) ∧
        (g.done = true → Completes (.ledgerFetch n tag) s (fun t =>
          Completed a .ok t ∧
            (a.cmd.len ≠ 0 → HasResult a (((segBytes g).drop (fld a.cmd.param 4 0 32)).take a.cmd.len) t) ∧
            (fldB a.cmd.param 2 0 = false → t.ledger = s.ledger) ∧
            (fldB a.cmd.param 2 0 = true → ∀ x ∈ t.ledger.segs, x.segid.toNat ≠ id))))) ∧
    (DueRow s .cellMbx n tag a → a.order ∉ s.pwr.dramHeld → follows s = false →
      (s.lanesOn = true → Completes (.cellMbx n tag) s (fun t =>
        (commands s = true → lane t (mbxLane a.cmd) = { lane s (mbxLane a.cmd) with
            waiting := (lane s (mbxLane a.cmd)).waiting ++ [{
              op := BitVec.ofNat 8 (fld a.cmd.param 2 0 8), arg := BitVec.ofNat 32 (fld a.cmd.param 4 0 32)
              slot := if fld a.cmd.param 0 0 16 ≤ 8191 then BitVec.ofNat 8 (fld a.cmd.param 0 0 16 % 128) else 0xFF
              data := padTo 64 a.cmd.body, owner := .host a.order }] }) ∧
          (t.accepted.find? fun x => x.order == a.order) = some { a with begun := true } ∧
          (∀ l, l ≠ mbxLane a.cmd → lane t l = lane s l) ∧ t.cells = s.cells ∧ t.conv = s.conv)) ∧
      (s.lanesOn = false → Completes (.cellMbx n tag) s (fun t =>
        Completed a .noReply t ∧ t.lanes = s.lanes ∧ t.cells = s.cells ∧ t.conv = s.conv))) ∧
    (DueRow s .cellMbx n tag a → a.order ∉ s.pwr.dramHeld → follows s = true → Completes (.cellMbx n tag) s (fun t =>
      Completed a .ok t ∧ t.lanes = s.lanes ∧ t.cells = s.cells ∧ t.conv = s.conv))

/-- Images (R440, R538, R543, R545, R546, R549), each in its turn of the security engine, which is on for the step: a
program image or cell firmware that verifies is staged or distributed, one that fails is reported with SIG_INVALID and
raises SECURITY, and nothing of it is taken; a program that does not follow the running one is refused (R440); an operation
whose turn has not come waits; a slice is placed in its staging area; the finish of an image clears its area
and begins the write of the copy with the lower write sequence; an attestation brings its report. The model's own part: log
entries 5, 10, 11, 48. -/
def Obligations.ImageCommands : Prop :=
  ∀ (n : CtxIx) (tag : BitVec 16) (a : Accepted) (s : State), a.order ∉ s.pwr.dramHeld →
    let s1 := engineOn { s with sent := [] }
    let image := a.cmd.body
    let kind := fld a.cmd.param 0 0 8
    let staged := kget [] s.sec.stage kind
    let rejected := fun (t : State) => Completed a .sigInvalid t ∧ latched t (srcBit .security) = true ∧ t.bench = s.bench ∧
      t.fwJob = s.fwJob ∧ t.sec.writing = s.sec.writing ∧ KeepsCells s t ∧ t.conv = s.conv
    (DueRow s .progLoad n tag a → engineTurn s a = true →
      (verifyReason s1 kProgram image ≠ 0 → Completes (.progLoad n tag) s rejected) ∧
      (∀ img, verifyReason s1 kProgram image = 0 →
        parseImage (split s) (infoOf image).hash (infoOf image).epoch (imgBody image) = some img →
        (programRuns s = true → ∀ old, s.bench.image = some old → old.imageId = img.predId) → Completes (.progLoad n tag) s (fun t =>
          Completed a .ok t ∧ t.bench = { s.bench with staged := some img } ∧ t.cells = s.cells ∧ t.conv = s.conv)) ∧
      (∀ img old, verifyReason s1 kProgram image = 0 →
        parseImage (split s) (infoOf image).hash (infoOf image).epoch (imgBody image) = some img → programRuns s = true →
        s.bench.image = some old → old.imageId ≠ img.predId → Completes (.progLoad n tag) s (fun t =>
          Completed a .refused t ∧ t.bench = s.bench ∧ t.cells = s.cells ∧ t.conv = s.conv))) ∧
    (DueRow s .cellFw n tag a → s.fwJob = none → follows s = true → engineTurn s a = true → Completes (.cellFw n tag) s (fun t =>
      Completed a .ok t ∧ t.fwJob = none ∧ t.cells = s.cells ∧ t.conv = s.conv)) ∧
    (DueRow s .progLoad n tag a → engineTurn s a = false → Completes (.progLoad n tag) s (fun t =>
      t.accepted = s.accepted ∧ t.bench = s.bench ∧ t.cells = s.cells ∧ t.conv = s.conv)) ∧
    (DueRow s .cellFw n tag a → s.fwJob = none → engineTurn s a = true → follows s = false →
      (verifyReason s1 kCell image ≠ 0 → Completes (.cellFw n tag) s rejected) ∧
      (verifyReason s1 kCell image = 0 → Completes (.cellFw n tag) s (fun t =>
        t.fwJob = some { ctx := a.cmd.ctx, order := a.order, lanes := fwLanes a.cmd, image := imgBody image
                         version := (infoOf image).version, sha := (infoOf image).hash, resLen := fld a.cmd.param 16 0 32 } ∧
          (t.accepted.find? fun x => x.order == a.order) = some { a with begun := true } ∧ t.cells = s.cells ∧ t.conv = s.conv))) ∧
    (DueRow s .imgSlice n tag a → Completes (.imgSlice n tag) s (fun t =>
      Completed a .ok t ∧ kget [] t.sec.stage kind = overlay staged (fld a.cmd.param 4 0 32) image ∧
        (∀ k, k ≠ kind → kget [] t.sec.stage k = kget [] s.sec.stage k) ∧ t.cells = s.cells ∧ t.conv = s.conv)) ∧
    (DueRow s .imgFinish n tag a → engineTurn s a = true →
      (verifyReason s1 kind staged ≠ 0 → Completes (.imgFinish n tag) s (fun t => rejected t ∧ kget [] t.sec.stage kind = [])) ∧
      (verifyReason s1 kind staged = 0 → kind ≠ kRevocation → Completes (.imgFinish n tag) s (fun t =>
        t.sec.writing = s.sec.writing ++ [{ kind := kind, copyB := (nextCopy s kind).1, image := staged, order := a.order }] ∧
          kget [] t.sec.stage kind = [] ∧ t.accepted = s.accepted ∧ t.cells = s.cells ∧ t.conv = s.conv)) ∧
      (verifyReason s1 kind staged = 0 → kind = kRevocation → (revoke staged s1).1 = true → Completes (.imgFinish n tag) s (fun t =>
        Completed a .ok t ∧ t.sec.revoked = s.sec.revoked ||| BitVec.ofNat 8 (fld staged 1024 0 8) ∧ kget [] t.sec.stage kind = [] ∧
          t.cells = s.cells ∧ t.conv = s.conv))) ∧
    (DueRow s .attest n tag a → engineTurn s a = true → Completes (.attest n tag) s (fun t =>
      Completed a .ok t ∧ HasResult a (attestReport s1 (a.cmd.param.take 16)) t ∧ t.cells = s.cells ∧ t.conv = s.conv))

/-! Register writes, captures, security and boot (chapters 20, 21, 23). -/

/-- A register write through BAR0 (R9, R59, R410, R582, R584, R586, R600). Of a register whose fields follow their access
codes alone, a value out of range is recorded in WRERR and leaves it; a counter clears with its SAT bit; a write to ST
fields is held; otherwise every RW field takes its bits and every RO field keeps its own. A write that is not whole, that no
register answers, or by a virtual function outside its window, changes nothing; a virtual function's write of HST_PERM or
HST_LEAD is recorded as an error (R487); one to a domain that is off is held. A register with an effect of its own has that
effect, which its own command's statement gives. The model's own part: log entry 50. -/
def Obligations.RegisterWrites : Prop :=
  ∀ (a v : Word) (s : State),
    let n := a.toNat
    (∀ r : RegSpec, regSpecAt n = some r → n % 4 = 0 → Writable n s → ownWrite n v = none → (∀ x, arrayWrite r n v true x = plainWrite r n v x) →
      n ≠ 0x30000 →
      (outOfRange r v = true → Completes (.registerWrite a v 0xF true) s (fun t =>
        (∀ f, wrerrOf n = some f → rdB t f = true ∧ OnlyRegs [f.addr] s t) ∧ (wrerrOf n = none → Unchanged s t))) ∧
      (outOfRange r v = false → isCounter r = true → Completes (.registerWrite a v 0xF true) s (fun t =>
        rdWord t n = (if v.getLsbD 31 then 0 else rdWord s n) ∧ OnlyRegs [n] s t)) ∧
      (outOfRange r v = false → isCounter r = false → (∃ f ∈ r.fields, f.acc = .st) → Completes (.registerWrite a v 0xF true) s (fun t =>
        t.stWrites = s.stWrites ++ [{ addr := n, value := stValue r v, at_ := s.time }] ∧ rdB t TCK_COMMIT_PEND = true ∧
          OnlyRegs [TCK_COMMIT_PEND.addr] { s with stWrites := t.stWrites } t)) ∧
      (outOfRange r v = false → isCounter r = false → (∀ f ∈ r.fields, f.acc ≠ .st) → Completes (.registerWrite a v 0xF true) s (fun t =>
        (∀ f ∈ r.fields, f.acc = .rw → rd t ⟨n, f.lo, f.width⟩ = v.toNat / 2 ^ f.lo % 2 ^ f.width) ∧
          (∀ f ∈ r.fields, f.acc = .ro → rd t ⟨n, f.lo, f.width⟩ = rd s ⟨n, f.lo, f.width⟩) ∧ OnlyRegs [n] s t))) ∧
    (∀ (be : BitVec 4) (pf : Bool), Live s →
      be ≠ 0xF ∨ n % 4 ≠ 0 ∨ regSpecAt n = none ∨ (pf = false ∧ (n < 0x78000 ∨ 0x79004 ≤ n)) →
      Completes (.registerWrite a v be pf) s (Unchanged s)) ∧
    (∀ (r : RegSpec) (pf : Bool), regSpecAt n = some r → n % 4 = 0 → Writable n s → pf = true ∨ (0x78000 ≤ n ∧ n < 0x79004) →
      (pf = false → n = 0x79000 ∨ n % 0x100 = 0x1C → Completes (.registerWrite a v 0xF pf) s (fun t =>
        ∀ f, wrerrOf n = some f → rdB t f = true ∧ OnlyRegs [f.addr] s t)) ∧
      (pf = true ∨ (n ≠ 0x79000 ∧ n % 0x100 ≠ 0x1C) → outOfRange r v = false → n ≠ 0x30000 →
        (∀ f, ownWrite n v = some f → Completes (.registerWrite a v 0xF pf) s (fun t => t = f { s with sent := [] })) ∧
        (ownWrite n v = none → Completes (.registerWrite a v 0xF pf) s (fun t => t = arrayWrite r n v pf { s with sent := [] })))) ∧
    (∀ r : RegSpec, Live s → regSpecAt n = some r → n % 4 = 0 → answers s n = true → domainOn s (domainOf n) = false → n ≠ 0x30000 →
      Completes (.registerWrite a v 0xF true) s (fun t =>
        t = { s with sent := [], pwr := { s.pwr with held := s.pwr.held ++ [(n, v)] } }))

/-- A write to a latch register counts LSEQ and captures its block's set (R236, R312, R414, R469, R484, R587); what it
captures is shown in the block's snapshot registers, here for the newest SAR results, the words of the sequencer, the first
fault record, the Foreman's contexts and the Ledger's segments. GLB_CTRL.RUN in SETUP is pending until the next mark;
elsewhere it is refused with reason 3; without the bit nothing happens (R551). The model's own part: log entry 50. -/
def Obligations.CapturesAndRun : Prop :=
  (∀ s : State,
     let counts := fun (f : Field) (t : State) => rd t f = (rd s f + 1) % 65536
     let onlyRegs := fun (t : State) => t = { s with sent := [], regs := t.regs }
     (Writable 0x21080 s → Completes (.snapshotLatch .mea) s (fun t =>
       counts MEA_LATCH_LSEQ t ∧ onlyRegs t ∧
         ∀ k, k < 23 → rd t (MEA_SNAP_RESULT k) = (kget ({} : SarResult) s.meas.latest k).val.toNat)) ∧
     (Writable 0x38004 s → Completes (.snapshotLatch .lvs) s (fun t =>
       counts LVS_LATCH_LSEQ t ∧ onlyRegs t ∧
         ∀ a k, a < 12 → k < 4 → rdWord t (0x38100 + 16 * a + 4 * k) = (armDyn s a).lvs.getD k 0)) ∧
     (Writable 0x40000 s → Completes (.snapshotLatch .sel) s (fun t =>
       counts SEL_LATCH_LSEQ t ∧ onlyRegs t ∧ ∀ a, a < 12 → rdWord t (0x40104 + 16 * a) = (armDyn s a).sel.getD 1 0)) ∧
     (Writable 0x58020 s → Completes (.snapshotLatch .fcl) s (fun t =>
       counts FCL_LATCH_LSEQ t ∧ onlyRegs t ∧
         ∀ r w, s.fcl.first = some r → w < 12 → rd t (FCL_FIRST_W w) = fld (recBytes r) (4 * w) 0 32)) ∧
     (Writable 0x68010 s → Completes (.snapshotLatch .fmn) s (fun t =>
       counts FMN_LATCH_LSEQ t ∧ t.cells = s.cells ∧ t.conv = s.conv ∧ t.bench = s.bench ∧
         ∀ c, c < 256 → rd t (FMN_CTXSTAT_CSTATE c) = (fctx t c).st.code)) ∧
     (Writable 0x70014 s → Completes (.snapshotLatch .ldg) s (fun t =>
       counts LDG_LATCH_LSEQ t ∧ onlyRegs t ∧ rd t LDG_SEGNEW_HELD = min 0xFFFF s.ledger.segs.length ∧
         rd t LDG_SEGNEW_SEGID = (s.ledger.segs.map (·.segid.toNat)).getLastD 0))) ∧
  (∀ (v : Word) (s : State), Writable 0x10 s →
     (v.getLsbD 0 = true → s.dev = .setup → Completes (.glbCtrlRun v) s (fun t =>
       rdB t GLB_CTRL_RUN = true ∧ t.dev = .setup ∧ OnlyRegs [GLB_CTRL_RUN.addr] s t)) ∧
     (v.getLsbD 0 = true → s.dev ≠ .setup → Completes (.glbCtrlRun v) s (fun t =>
       rd t GLB_STATUS_RUNREJ = 3 ∧ rdB t GLB_STATUS_WRERR = true ∧ rdB t GLB_CTRL_RUN = rdB s GLB_CTRL_RUN ∧
         OnlyRegs [GLB_STATUS_WRERR.addr] s t)) ∧
     (v.getLsbD 0 = false → Completes (.glbCtrlRun v) s (Unchanged s)))

/-- Fuses and floors (R533, R536): the key burns the owner slot named in SETUP, if it is blank and no burn runs, and another
request with the key is refused; the burn that ends programs the slot with the key data that it began with; in RUN a GO bit
raises the floor of its kind to the running image's EPOCH, a floor never falls, and outside RUN the write is refused. -/
def Obligations.FusesAndFloors : Prop :=
  ∀ (v : Word) (s : State),
    let slot := v.toNat % 8
    let key := v.toNat / 256 % 256
    let may := s.dev = .setup ∧ 4 ≤ slot ∧ s.sec.prog.getLsbD slot = false ∧ s.sec.burning = none
    let hash := (List.range 8).flatMap fun n => leBytes 4 (kget (0 : Word) s.sec.keyData n).toNat
    (Writable 0x88008 s → key ≠ 0xC3 → Completes (.secFuseBurn v) s (Unchanged s)) ∧
    (Writable 0x88008 s → key = 0xC3 → may → Completes (.secFuseBurn v) s (fun t =>
      t.sec = { s.sec with burning := some (slot, hash) } ∧ rdB t SEC_STATUS_BUSY = true ∧
        OnlyRegs [SEC_STATUS_BUSY.addr] { s with sec := t.sec } t)) ∧
    (Writable 0x88008 s → key = 0xC3 → ¬ may → Completes (.secFuseBurn v) s (fun t =>
      rdB t SEC_STATUS_WRERR = true ∧ OnlyRegs [SEC_STATUS_WRERR.addr] s t)) ∧
    (∀ k h, Live s → s.sec.burning = some (k, h) → k < 8 → Completes .fuseBurnDone s (fun t =>
      t.sec.burning = none ∧ t.sec.prog.getLsbD k = true ∧ (∀ j, j < 8 → j ≠ k → t.sec.prog.getLsbD j = s.sec.prog.getLsbD j) ∧
        kget [] t.sec.hashes k = h ∧ (∀ j, j ≠ k → kget [] t.sec.hashes j = kget [] s.sec.hashes j) ∧ rdB t SEC_STATUS_BUSY = false ∧
        rd t SEC_STATUS_PROG = t.sec.prog.toNat ∧ t.sec.revoked = s.sec.revoked ∧ t.sec.floors = s.sec.floors ∧ t.cells = s.cells)) ∧
    (Writable 0x8800C s → s.dev = .run → (∃ g ∈ [18, 19, 20], v.getLsbD g = true) → Completes (.epochRaise v) s (fun t =>
      (∀ g ∈ [(18, kFirmware), (19, kBoard), (20, kProgram)],
        (v.getLsbD g.1 = true → ∀ e, runningEpoch s g.2 = some e → floorOf t g.2 = max (floorOf s g.2) e) ∧
        (v.getLsbD g.1 = false ∨ runningEpoch s g.2 = none → floorOf t g.2 = floorOf s g.2)) ∧
      (∀ k, floorOf s k ≤ floorOf t k) ∧ t.sec = { s.sec with floors := t.sec.floors } ∧ t.cells = s.cells ∧ t.conv = s.conv)) ∧
    (Writable 0x8800C s → s.dev ≠ .run → (∃ g ∈ [18, 19, 20], v.getLsbD g = true) → Completes (.epochRaise v) s (fun t =>
      rdB t SEC_STATUS_WRERR = true ∧ OnlyRegs [SEC_STATUS_WRERR.addr] s t))

/-- Boot (R540, R542, R543). The boot ROM, on leaving RESET too, takes the first firmware copy that passes, and shows CAUSE
1 without one, 2 where the flash cannot be read, and stays in BOOT (R550); a failed check of the fuses is a failstop; the
firmware that it loaded starts in SETUP with its domains on and its copy no longer on trial, and raises CONFIG_INTEGRITY
where no board descriptor is valid. The end of a flash write gives the copy the next write sequence and completes its
command. The model's own part: log entries 6, 48. -/
def Obligations.BootSteps : Prop :=
  ∀ s : State,
    (∀ s1, s1 = wr PWR_RAILSTAT_GOOD 0x3FF (showIdentity { s with sent := [] }) → s.dev = .boot → s.sec.booted = false → s.sec.fw = none →
      rd s SEC_BOOTSTAT_CAUSE = 0 →
      (∀ b image s2, bootFirmware (copiesOf s1 kFirmware) s1 = (some (b, image), s2) → Completes (.bootRom { ecc := true, flash := true }) s (fun t =>
        t.dev = .boot ∧ t.sec.booted = true ∧ t.sec.fw = some (infoOf image) ∧ t.sec.fwCopyB = b ∧ rdB t SEC_BOOTSTAT_FWCOPY = b ∧
          rd t DPX_COMPAT_OWN = (infoOf image).compat.toNat ∧ KeepsCells s t ∧ t.conv = s.conv)) ∧
      (∀ s2, bootFirmware (copiesOf s1 kFirmware) s1 = (none, s2) → Completes (.bootRom { ecc := true, flash := true }) s (fun t =>
        t.dev = .boot ∧ t.sec.booted = false ∧ t.sec.fw = none ∧ rd t SEC_BOOTSTAT_CAUSE = 1 ∧ KeepsCells s t ∧ t.conv = s.conv)) ∧
      Completes (.bootRom { ecc := true, flash := false }) s (fun t =>
        t.dev = .boot ∧ t.sec.booted = false ∧ t.sec.fw = none ∧ rd t SEC_BOOTSTAT_CAUSE = 2 ∧ t.cells = s.cells ∧ t.conv = s.conv) ∧
      (∀ flash, Completes (.bootRom { ecc := false, flash := flash }) s (fun t =>
        t.dev = .failstop ∧ rd t FCL_FSCAUSE_CAUSE = 1 ∧ OutputsOff t ∧ t.cells = s.cells ∧ t.conv = s.conv))) ∧
    (∀ x, s.dev = .reset → rdB s GLB_STRAP_TEST_EN = false → s.pwr.supplyReset = true →
      exec (.bootRom x) s = exec (.bootRom x) { s with dev := .boot, pwr := { s.pwr with supplyReset := false } }) ∧
    (s.dev = .boot → s.sec.booted = true → Completes .firmwareStart s (fun t =>
      t.dev = .setup ∧ t.sec.booted = false ∧ rd t GLB_STATUS_DSTATE = 2 ∧ (∀ d, d < 12 → domainOn t d = true) ∧
        (flashCopy t (copyKey kFirmware s.sec.fwCopyB)).trial = false ∧
        (flashCopy t (copyKey kFirmware s.sec.fwCopyB)).image = (flashCopy s (copyKey kFirmware s.sec.fwCopyB)).image ∧
        (rdB s SEC_BOOTSTAT_BDVALID = false → latched t (srcBit .configIntegrity) = true) ∧
        (rdB s SEC_BOOTSTAT_BDVALID = true → ∀ j, j < 47 → latched t j = latched s j) ∧ KeepsCells s t ∧ t.conv = s.conv)) ∧
    (∀ w r, Live s → s.sec.writing = w :: r → Completes .flashWriteDone s (fun t =>
      t.sec.writing = r ∧ (flashCopy t (copyKey w.kind w.copyB)).image = w.image ∧
        (flashCopy t (copyKey w.kind w.copyB)).wseq = (nextCopy s w.kind).2 ∧ t.cells = s.cells ∧ t.conv = s.conv ∧
        (∀ a, (s.accepted.find? fun x => x.order == w.order) = some a → a.cmd.mirrored = false → hDiscards s a.cmd.ctx = false →
          Completed a .ok t)))
end

