-- ==== Sys2Proof/Laws/Keyed.lean ====
section
/-! SUPPORT. The laws of the sparse keyed lists: reading after writing, and that every operation keeps the canonical form. -/

namespace Sys2Proof.Machine

set_option Elab.async false

variable {α : Type}

@[simp] theorem kget_nil (d : α) (k : Nat) : kget d [] k = d := rfl

theorem kget_kdel_same (d : α) (l : KeyList α) (k : Nat) : kget d (kdel l k) k = d := by
  induction l with
  | nil => rfl
  | cons x r ih =>
    obtain ⟨j, w⟩ := x
    by_cases h : j = k <;> simp [kdel, kget, h, ih]

theorem kget_kdel_ne (d : α) (l : KeyList α) {k a : Nat} (h : a ≠ k) : kget d (kdel l k) a = kget d l a := by
  induction l with
  | nil => rfl
  | cons x r ih =>
    obtain ⟨j, w⟩ := x
    by_cases hj : j = k
    · have : j ≠ a := fun e => h (e ▸ hj)
      simp only [kdel, kget, hj, if_true, ih]
      rw [if_neg (hj ▸ this)]
    · simp only [kdel, if_neg hj, kget, ih]

theorem kget_kins_same (d : α) (l : KeyList α) (k : Nat) (v : α) (n : khas l k = false) :
    kget d (kins l k v) k = v := by
  induction l with
  | nil => simp [kins, kget]
  | cons x r ih =>
    obtain ⟨j, w⟩ := x
    simp only [khas, Bool.or_eq_false_iff, beq_eq_false_iff_ne] at n
    by_cases hj : k < j
    · simp [kins, hj, kget]
    · simp only [kins, hj, if_false, kget, if_neg n.1]
      exact ih n.2

theorem kget_kins_ne (d : α) (l : KeyList α) {k a : Nat} (v : α) (h : a ≠ k) : kget d (kins l k v) a = kget d l a := by
  induction l with
  | nil => simp [kins, kget, Ne.symm h]
  | cons x r ih =>
    obtain ⟨j, w⟩ := x
    by_cases hj : k < j
    · simp [kins, hj, kget, Ne.symm h]
    · simp only [kins, hj, if_false, kget, ih]

theorem khas_kdel (l : KeyList α) (k : Nat) : khas (kdel l k) k = false := by
  induction l with
  | nil => rfl
  | cons x r ih =>
    obtain ⟨j, w⟩ := x
    by_cases h : j = k <;> simp [kdel, khas, h, ih]

/-- Reading the key just placed. -/
@[simp] theorem kget_kput_same (d : α) (l : KeyList α) (k : Nat) (v : α) : kget d (kput l k v) k = v :=
  kget_kins_same d _ k v (khas_kdel l k)

/-- Reading another key than the one placed. -/
theorem kget_kput_ne (d : α) (l : KeyList α) {k a : Nat} (v : α) (h : a ≠ k) : kget d (kput l k v) a = kget d l a := by
  rw [kput, kget_kins_ne d _ v h, kget_kdel_ne d l h]

/-- Reading the key just written. -/
@[simp] theorem kget_kset_same [DecidableEq α] (d : α) (l : KeyList α) (k : Nat) (v : α) : kget d (kset d l k v) k = v := by
  unfold kset
  split
  · rw [kget_kdel_same]; exact (‹v = d›).symm
  · exact kget_kput_same d l k v

/-- Reading another key than the one written, whatever either key reads as by default. -/
theorem kget_kset_ne [DecidableEq α] (d e : α) (l : KeyList α) {k a : Nat} (v : α) (h : a ≠ k) :
    kget d (kset e l k v) a = kget d l a := by
  unfold kset
  split
  · exact kget_kdel_ne d l h
  · exact kget_kput_ne d l v h

/-- Reading the key just changed. -/
@[simp] theorem kget_kmod_same [DecidableEq α] (d : α) (l : KeyList α) (k : Nat) (f : α → α) :
    kget d (kmod d l k f) k = f (kget d l k) := by simp [kmod]

/-- Reading another key than the one changed. -/
theorem kget_kmod_ne [DecidableEq α] (d : α) (l : KeyList α) {k a : Nat} (f : α → α) (h : a ≠ k) :
    kget d (kmod d l k f) a = kget d l a := kget_kset_ne d d l _ h

/-! The canonical form. -/

variable [DecidableEq α]

theorem kwfFrom_mono (d : Nat → α) {lo lo' : Nat} (h : lo' ≤ lo) (l : KeyList α) (w : kwfFrom d lo l = true) :
    kwfFrom d lo' l = true := by
  cases l with
  | nil => rfl
  | cons x r =>
    obtain ⟨j, v⟩ := x
    simp only [kwfFrom, Bool.and_eq_true, decide_eq_true_eq] at w ⊢
    exact ⟨⟨Nat.le_trans h w.1.1, w.1.2⟩, w.2⟩

theorem kwfFrom_kdel (d : Nat → α) (k : Nat) (l : KeyList α) :
    ∀ lo, kwfFrom d lo l = true → kwfFrom d lo (kdel l k) = true := by
  induction l with
  | nil => intro lo h; rfl
  | cons x r ih =>
    obtain ⟨j, v⟩ := x
    intro lo w
    simp only [kwfFrom, Bool.and_eq_true, decide_eq_true_eq] at w
    by_cases h : j = k
    · simp only [kdel, h, if_true]
      exact ih _ (kwfFrom_mono d (by omega) r w.2)
    · simp only [kdel, h, if_false, kwfFrom, Bool.and_eq_true, decide_eq_true_eq]
      exact ⟨w.1, ih _ w.2⟩

theorem kwfFrom_kins (d : Nat → α) (k : Nat) (v : α) (hv : v ≠ d k) (l : KeyList α) :
    ∀ lo, lo ≤ k → khas l k = false → kwfFrom d lo l = true → kwfFrom d lo (kins l k v) = true := by
  induction l with
  | nil => intro lo hl _ _; simp [kins, kwfFrom, hl, hv]
  | cons x r ih =>
    obtain ⟨j, w⟩ := x
    intro lo hl hn hw
    simp only [kwfFrom, Bool.and_eq_true, decide_eq_true_eq] at hw
    simp only [khas, Bool.or_eq_false_iff, beq_eq_false_iff_ne] at hn
    by_cases h : k < j
    · simp only [kins, h, if_true, kwfFrom, Bool.and_eq_true, decide_eq_true_eq]
      exact ⟨⟨hl, hv⟩, ⟨h, hw.1.2⟩, hw.2⟩
    · simp only [kins, h, if_false, kwfFrom, Bool.and_eq_true, decide_eq_true_eq]
      exact ⟨hw.1, ih _ (by have := hn.1; omega) hn.2 hw.2⟩

/-- Removing a key keeps the canonical form. -/
theorem kwf_kdel (d : Nat → α) (l : KeyList α) (k : Nat) (h : kwf d l = true) : kwf d (kdel l k) = true :=
  kwfFrom_kdel d k l 0 h

/-- Writing a key keeps the canonical form. -/
theorem kwf_kset (d : Nat → α) (l : KeyList α) (k : Nat) (v : α) (h : kwf d l = true) : kwf d (kset (d k) l k v) = true := by
  unfold kset
  split
  · exact kwf_kdel d l k h
  · exact kwfFrom_kins d k v ‹_› _ 0 (Nat.zero_le _) (khas_kdel l k) (kwfFrom_kdel d k l 0 h)

/-- Dropping entries keeps the canonical form. -/
theorem kwf_filter (d : Nat → α) (p : Nat × α → Bool) (l : KeyList α) :
    ∀ lo, kwfFrom d lo l = true → kwfFrom d lo (l.filter p) = true := by
  induction l with
  | nil => intro lo h; rfl
  | cons x r ih =>
    obtain ⟨j, v⟩ := x
    intro lo w
    simp only [kwfFrom, Bool.and_eq_true, decide_eq_true_eq] at w
    by_cases h : p (j, v)
    · simp only [List.filter_cons, h, if_true, kwfFrom, Bool.and_eq_true, decide_eq_true_eq]
      exact ⟨w.1, ih _ w.2⟩
    · simp only [List.filter_cons, h]
      exact ih _ (kwfFrom_mono d (by omega) r w.2)

/-! Loops. -/

/-- What every round of a loop keeps, the loop keeps. -/
theorem forUpto_keep {σ β : Type} (g : σ → β) (n : Nat) (s : σ) (f : σ → Nat → σ) (h : ∀ s k, g (f s k) = g s) :
    g (forUpto n s f) = g s := by
  unfold forUpto
  induction List.range n generalizing s with
  | nil => rfl
  | cons k r ih => simp only [List.foldl_cons]; rw [ih, h]

/-- What every step of a fold keeps, the fold keeps. -/
theorem foldl_keep {σ β γ : Type} (g : σ → β) (l : List γ) (s : σ) (f : σ → γ → σ) (h : ∀ s x, g (f s x) = g s) :
    g (l.foldl f s) = g s := by
  induction l generalizing s with
  | nil => rfl
  | cons k r ih => simp only [List.foldl_cons]; rw [ih, h]

/-- An invariant of every round is one of the loop. -/
theorem forUpto_inv {σ : Type} (p : σ → Prop) (n : Nat) (s : σ) (f : σ → Nat → σ) (h0 : p s) (h : ∀ s k, p s → p (f s k)) :
    p (forUpto n s f) := by
  unfold forUpto
  induction List.range n generalizing s with
  | nil => exact h0
  | cons k r ih => simp only [List.foldl_cons]; exact ih _ (h _ _ h0)

end Sys2Proof.Machine
end

