-- ==== Sys2Proof/Laws/Regs.lean ====
section
/-! SUPPORT. The laws of the register file: reading a word or a field after one has been placed, and what placing one leaves. -/

namespace Sys2Proof.Machine

set_option Elab.async false

/-! Words. -/

@[simp] theorem rdWord_wrWord_same (s : State) (a : Nat) (v : Word) : rdWord (wrWord a v s) a = v := by
  simp [rdWord, wrWord]

theorem rdWord_wrWord_ne (s : State) {a b : Nat} (v : Word) (h : b ≠ a) : rdWord (wrWord a v s) b = rdWord s b := by
  simp only [rdWord, wrWord]
  exact kget_kset_ne _ _ _ _ h

theorem rdWord_congr {s t : State} (h : t.regs = s.regs) (a : Nat) : rdWord t a = rdWord s a := by
  simp only [rdWord, h]

theorem rd_congr {s t : State} (h : t.regs = s.regs) (f : Field) : rd t f = rd s f := by
  simp only [rd, rdWord_congr h]

theorem rdB_congr {s t : State} (h : t.regs = s.regs) (f : Field) : rdB t f = rdB s f := by
  simp only [rdB, rd_congr h]

/-! Bits of a word with a field replaced. -/

theorem putBits_testBit (w : Word) {lo width : Nat} (v : Nat) (h : lo + width ≤ 32) (i : Nat) :
    (putBits w lo width v).toNat.testBit i =
      if lo ≤ i ∧ i < lo + width then v.testBit (i - lo) else w.toNat.testBit i := by
  have hw : w.toNat < 2 ^ 32 := w.isLt
  obtain ⟨n, hn⟩ : ∃ n, n = w.toNat := ⟨_, rfl⟩
  rw [← hn] at hw
  -- the word in three parts
  have hmid : n / 2 ^ lo % 2 ^ width < 2 ^ width := Nat.mod_lt _ (Nat.two_pow_pos _)
  have hv : v % 2 ^ width < 2 ^ width := Nat.mod_lt _ (Nat.two_pow_pos _)
  have hlow : n % 2 ^ lo < 2 ^ lo := Nat.mod_lt _ (Nat.two_pow_pos _)
  have e1 : n = 2 ^ lo * (2 ^ width * (n / 2 ^ lo / 2 ^ width) + n / 2 ^ lo % 2 ^ width) + n % 2 ^ lo := by
    rw [Nat.div_add_mod, Nat.div_add_mod]
  have e2 : n - n / 2 ^ lo % 2 ^ width * 2 ^ lo + v % 2 ^ width * 2 ^ lo =
      2 ^ lo * (2 ^ width * (n / 2 ^ lo / 2 ^ width) + v % 2 ^ width) + n % 2 ^ lo := by
    generalize hm : n / 2 ^ lo % 2 ^ width = m at *
    generalize hh : 2 ^ width * (n / 2 ^ lo / 2 ^ width) = t at *
    generalize hl : n % 2 ^ lo = l at *
    rw [Nat.mul_add] at e1 ⊢
    rw [Nat.mul_comm m, Nat.mul_comm (v % 2 ^ width)]
    omega
  have bit : ∀ i x, x < 2 ^ width → (2 ^ lo * (2 ^ width * (n / 2 ^ lo / 2 ^ width) + x) + n % 2 ^ lo).testBit i =
      if i < lo then (n % 2 ^ lo).testBit i else if i - lo < width then x.testBit (i - lo)
        else (n / 2 ^ lo / 2 ^ width).testBit (i - lo - width) := by
    intro i x hx
    rw [Nat.testBit_two_pow_mul_add _ hlow]
    split
    · rfl
    · rw [Nat.testBit_two_pow_mul_add _ hx]
  have hlt : 2 ^ lo * (2 ^ width * (n / 2 ^ lo / 2 ^ width) + v % 2 ^ width) + n % 2 ^ lo < 2 ^ 32 := by
    apply Nat.lt_pow_two_of_testBit
    intro j hj
    rw [bit j _ hv, if_neg (by omega), if_neg (by omega), Nat.testBit_div_two_pow, Nat.testBit_div_two_pow]
    apply Nat.testBit_lt_two_pow
    have : j - lo - width + width + lo = j := by omega
    rw [this]
    exact Nat.lt_of_lt_of_le hw (Nat.pow_le_pow_right (by omega) hj)
  have hput : (putBits w lo width v).toNat = 2 ^ lo * (2 ^ width * (n / 2 ^ lo / 2 ^ width) + v % 2 ^ width) + n % 2 ^ lo := by
    unfold putBits
    rw [← hn, e2, BitVec.toNat_ofNat, Nat.mod_eq_of_lt hlt]
  rw [hput, bit i _ hv, ← hn]
  by_cases h1 : i < lo
  · rw [if_pos h1, if_neg (by omega), Nat.testBit_mod_two_pow]; simp [h1]
  · rw [if_neg h1]
    by_cases h2 : i - lo < width
    · rw [if_pos h2, if_pos (by omega), Nat.testBit_mod_two_pow]; simp [h2]
    · rw [if_neg h2, if_neg (by omega), Nat.testBit_div_two_pow, Nat.testBit_div_two_pow]
      congr 1; omega

/-! Fields. -/

theorem rd_testBit (s : State) (f : Field) (i : Nat) :
    (rd s f).testBit i = (decide (i < f.width) && (rdWord s f.addr).toNat.testBit (i + f.lo)) := by
  unfold rd
  rw [Nat.testBit_mod_two_pow, Nat.testBit_div_two_pow]

/-- A field that lies within its word reads what was placed. -/
theorem rd_wr_same (s : State) (f : Field) (v : Nat) (h : f.lo + f.width ≤ 32) : rd (wr f v s) f = v % 2 ^ f.width := by
  apply Nat.eq_of_testBit_eq
  intro i
  rw [rd_testBit, wr, rdWord_wrWord_same, putBits_testBit _ _ h, Nat.testBit_mod_two_pow]
  by_cases hi : i < f.width
  · rw [if_pos (by omega)]; simp [hi]
  · simp [hi]

/-- Fields of other registers keep their value. -/
theorem rd_wr_addr (s : State) (f g : Field) (v : Nat) (h : g.addr ≠ f.addr) : rd (wr f v s) g = rd s g := by
  unfold rd wr
  rw [rdWord_wrWord_ne _ _ h]

/-- Fields of the same register that lie elsewhere keep their value. -/
theorem rd_wr_apart (s : State) (f g : Field) (v : Nat) (h : f.lo + f.width ≤ 32)
    (d : g.lo + g.width ≤ f.lo ∨ f.lo + f.width ≤ g.lo) : rd (wr f v s) g = rd s g := by
  by_cases ha : g.addr = f.addr
  · apply Nat.eq_of_testBit_eq
    intro i
    rw [rd_testBit, rd_testBit, wr, ha, rdWord_wrWord_same, putBits_testBit _ _ h]
    by_cases hi : i < g.width
    · rw [if_neg (by omega)]
    · simp [hi]
  · exact rd_wr_addr s f g v ha

theorem rdWord_wr_ne (s : State) (f : Field) (v : Nat) {a : Nat} (h : a ≠ f.addr) : rdWord (wr f v s) a = rdWord s a := by
  unfold wr
  exact rdWord_wrWord_ne _ _ h

theorem rdB_wrB_same (s : State) (f : Field) (b : Bool) (h : f.lo + f.width ≤ 32) (w : f.width = 1) : rdB (wrB f b s) f = b := by
  unfold rdB wrB
  rw [rd_wr_same _ _ _ h, w]
  cases b <;> rfl

theorem rd_wrB_addr (s : State) (f g : Field) (b : Bool) (h : g.addr ≠ f.addr) : rd (wrB f b s) g = rd s g :=
  rd_wr_addr s f g _ h

theorem rdB_wr_addr (s : State) (f g : Field) (v : Nat) (h : g.addr ≠ f.addr) : rdB (wr f v s) g = rdB s g := by
  unfold rdB; rw [rd_wr_addr s f g v h]

theorem rdB_wrB_addr (s : State) (f g : Field) (b : Bool) (h : g.addr ≠ f.addr) : rdB (wrB f b s) g = rdB s g :=
  rdB_wr_addr s f g _ h

theorem rdB_wrB_apart (s : State) (f g : Field) (b : Bool) (h : f.lo + f.width ≤ 32)
    (d : g.lo + g.width ≤ f.lo ∨ f.lo + f.width ≤ g.lo) : rdB (wrB f b s) g = rdB s g := by
  unfold rdB wrB; rw [rd_wr_apart s f g _ h d]

/-- Placing a word touches the registers alone. -/
theorem wrWord_eq (a : Nat) (v : Word) (s : State) : wrWord a v s = { s with regs := (wrWord a v s).regs } := rfl

/-- Placing a field touches the registers alone. -/
theorem wr_eq (f : Field) (v : Nat) (s : State) : wr f v s = { s with regs := (wr f v s).regs } := rfl

/-- Counting touches the registers alone. -/
theorem countN_eq (f : Field) (n : Nat) (s : State) : countN f n s = { s with regs := (countN f n s).regs } := by
  unfold countN
  split
  · rfl
  · dsimp only
    split <;> rfl

/-- Counting leaves every other register. -/
theorem rdWord_countN_ne (s : State) (f : Field) (n : Nat) {a : Nat} (h : a ≠ f.addr) :
    rdWord (countN f n s) a = rdWord s a := by
  unfold countN
  split
  · rfl
  · simp only
    split <;> exact rdWord_wrWord_ne _ _ h

/-! The canonical form. -/

/-- The register file and the tables are in canonical form. -/
def Canonical (s : State) : Prop := kwf regReset s.regs = true ∧ kwf tabDefault s.tabs = true

theorem wrWord_canonical {s : State} (h : Canonical s) (a : Nat) (v : Word) : Canonical (wrWord a v s) :=
  ⟨kwf_kset regReset s.regs a v h.1, h.2⟩

theorem wr_canonical {s : State} (h : Canonical s) (f : Field) (v : Nat) : Canonical (wr f v s) := wrWord_canonical h _ _

theorem countN_canonical {s : State} (h : Canonical s) (f : Field) (n : Nat) : Canonical (countN f n s) := by
  unfold countN
  split
  · exact h
  · dsimp only
    split <;> exact wrWord_canonical h _ _

/-- Committing an entry keeps the tables' form. -/
theorem setTabIn_kwf {tabs : KeyList (List Byte)} (h : kwf tabDefault tabs = true) (t i : Nat) (e : List Byte) :
    kwf tabDefault (setTabIn tabs t i e) = true := kwf_kset tabDefault tabs _ e h

end Sys2Proof.Machine
end

