-- ==== Sys2Proof/Laws/Collector.lean ====
section
/-! SUPPORT. What raising a fault source and de-energising the safety outputs change and leave. -/

namespace Sys2Proof.Machine

set_option Elab.async false

/-- From `s` to `t` nothing changes but what `State.base` strips, and of the registers those in `k`. -/
def Within (k : Nat → Bool) (s t : State) : Prop := t.base = s.base ∧ KeepsRegs k s t

theorem Within.refl (k : Nat → Bool) (s : State) : Within k s s := ⟨rfl, fun _ _ => rfl⟩

theorem Within.trans {k : Nat → Bool} {s t u : State} (h : Within k s t) (g : Within k t u) : Within k s u :=
  ⟨g.1.trans h.1, fun a n => (g.2 a n).trans (h.2 a n)⟩

theorem Within.mono {k l : Nat → Bool} {s t : State} (h : Within k s t) (w : ∀ a, k a = true → l a = true) : Within l s t :=
  ⟨h.1, fun a n => h.2 a (by
    cases e : k a
    · rfl
    · rw [w a e] at n; cases n)⟩

theorem within_wr {k : Nat → Bool} {f : Field} (w : k f.addr = true) (v : Nat) (s : State) : Within k s (wr f v s) :=
  ⟨rfl, fun a n => rdWord_wr_ne s f v (by rintro rfl; rw [w] at n; cases n)⟩

theorem within_countN {k : Nat → Bool} {f : Field} (w : k f.addr = true) (n : Nat) (s : State) : Within k s (countN f n s) :=
  ⟨by rw [countN_eq]; rfl, fun a m => rdWord_countN_ne s f n (by rintro rfl; rw [w] at m; cases m)⟩

/-- An update that leaves the registers and what `State.base` keeps. -/
theorem within_of_regs {k : Nat → Bool} {s t : State} (b : t.base = s.base) (r : t.regs = s.regs) : Within k s t :=
  ⟨b, fun a _ => rdWord_congr r a⟩

theorem within_forUpto {k : Nat → Bool} (n : Nat) (s : State) (f : State → Nat → State) (h : ∀ s i, i < n → Within k s (f s i)) :
    Within k s (forUpto n s f) := by
  unfold forUpto
  have w : ∀ i ∈ List.range n, i < n := fun i m => List.mem_range.1 m
  revert w
  generalize List.range n = l
  intro w
  induction l generalizing s with
  | nil => exact .refl _ _
  | cons i r ih =>
    exact (h s i (w i (by simp))).trans (ih _ fun j m => w j (by simp [m]))

theorem within_foldl {k : Nat → Bool} {γ : Type} (l : List γ) (s : State) (f : State → γ → State) (h : ∀ s x, Within k s (f s x)) :
    Within k s (l.foldl f s) := by
  induction l generalizing s with
  | nil => exact .refl _ _
  | cons x r ih => exact (h s x).trans (ih _)

/-- The registers raising a source may write, but for the Fault Status Word. -/
def quietReg (a : Nat) : Bool := raiseReg a && decide (a ≠ 0x58000 ∧ a ≠ 0x58004)

theorem quiet_raise (a : Nat) (h : quietReg a = true) : raiseReg a = true := (Bool.and_eq_true_iff.1 h).1

theorem quietReg_of {a : Nat} (h : (0x48010 ≤ a ∧ a < 0x48020) ∨ (0x61000 ≤ a ∧ a < 0x62000)) : quietReg a = true := by
  unfold quietReg raiseReg
  rw [Bool.and_eq_true]
  exact ⟨decide_eq_true (by omega), decide_eq_true (by omega)⟩

/-! The parts of a raise. -/

theorem within_setFlag (n k : Nat) (h : n < 64) (s : State) : Within quietReg s (setFlag n k s) := by
  unfold setFlag
  dsimp only
  split
  · exact within_countN (by decide) 1 s
  · have m : Within quietReg s (modCtx (32 + n) (fun c => { c with flags := (fctx s (32 + n)).flags ||| BitVec.ofNat 64 (2 ^ k) }) s) :=
      within_of_regs rfl rfl
    split
    · refine m.trans (within_wr (quietReg_of ?_) _ _)
      simp only [BEN_TSTAT_PEND]
      omega
    · exact m

theorem fld_lt (l : List Byte) (i lo width : Nat) : fld l i lo width < 2 ^ width := by
  unfold fld
  exact Nat.mod_lt _ (Nat.two_pow_pos _)

theorem within_occur (src : Nat) (s : State) : Within quietReg s (occur src s) := by
  unfold occur
  refine within_forUpto _ _ _ fun s i _ => ?_
  dsimp only
  split
  · exact within_setFlag _ _ (fld_lt _ _ _ 6) s
  · exact .refl _ _

theorem within_mirrorEvent (e : DoveEvent) (s : State) : Within quietReg s (mirrorEvent e s) := by
  unfold mirrorEvent mirror sendDove
  split
  · split
    · exact .refl _ _
    · exact within_of_regs rfl rfl
  · exact .refl _ _

theorem within_setSout (k : Nat) (h : k < 4) (o : SafeOut) (s : State) : Within quietReg s (setSout k o s) := by
  have w : ∀ a, a = 0x48010 + 4 * k → quietReg a = true := by
    intro a e
    exact quietReg_of (by omega)
  unfold setSout
  refine Within.trans (t := { s with prot := { s.prot with outs := kset {} s.prot.outs k o } }) (within_of_regs rfl rfl) ?_
  refine Within.trans (within_wr (w _ ?_) _ _) (Within.trans (within_wr (w _ ?_) _ _) (Within.trans (within_wr (w _ ?_) _ _)
    (Within.trans (within_wr (w _ ?_) _ _) (Within.trans (within_wr (w _ ?_) _ _) (within_wr (w _ ?_) _ _))))) <;> rfl

theorem within_deEnergise (k : Nat) (h : k < 4) (s : State) : Within quietReg s (deEnergise k s) := by
  unfold deEnergise
  dsimp only
  split
  · exact .refl _ _
  · exact within_setSout k h _ _

theorem within_deEnergiseAll (s : State) : Within quietReg s (deEnergiseAll s) :=
  within_forUpto _ _ _ fun s i h => within_deEnergise i h s

theorem untold_superseded (w : Tick) (c : Cell) : (superseded w c).untold = c.untold := by
  have e : (c.dyn.wins.map fun x => if x.window = w then { x with ntrans := 0 } else x).map (fun x => { x with ntrans := 0 }) =
      c.dyn.wins.map fun x => { x with ntrans := 0 } := by
    rw [List.map_map]
    refine List.map_congr_left fun x _ => ?_
    rw [Function.comp]
    split <;> rfl
  exact congrArg (fun l => { c with dyn := { c.dyn with wins := l } }) e

theorem within_cancelRate (s : State) : Within quietReg s (cancelRate s) := by
  unfold cancelRate
  split
  · exact .refl _ _
  · dsimp only
    split
    · exact .refl _ _
    · split
      · exact .refl _ _
      · split
        · refine Within.trans (within_of_regs (t := { s with cells := s.cells.map fun c => (c.1, superseded (s.tick + 1) c.2) }) ?_ rfl)
            (Within.trans (within_countN (f := TCK_OVR_CNT_COUNT) (by decide) 1 _) (within_of_regs rfl rfl))
          simp only [State.base, List.map_map, Function.comp_def, untold_superseded]
        · exact within_of_regs rfl rfl

theorem within_react (sev : Nat) (s : State) : Within quietReg s (react sev s) := by
  have d : Within quietReg s (if 5 ≤ sev then deEnergiseAll s else s) := by
    split
    · exact within_deEnergiseAll s
    · exact .refl _ _
  unfold react
  dsimp only
  generalize (if 5 ≤ sev then deEnergiseAll s else s) = u at d
  split
  · exact d
  · exact d.trans ((within_mirrorEvent _ _).trans (Within.trans (within_of_regs rfl rfl) (within_cancelRate _)))

theorem within_escalate (old new : Nat) (s : State) : Within quietReg s (escalate old new s) := by
  unfold escalate
  dsimp only
  split
  · exact within_react _ _
  · split
    · exact within_deEnergiseAll s
    · refine (within_deEnergiseAll s).trans ?_
      generalize deEnergiseAll s = u
      exact within_of_regs rfl rfl

theorem within_mergeInto (h : Shadow) (i sev : Nat) (s : State) : Within quietReg s (mergeInto h i sev s) := by
  have u : ∀ f, Within quietReg s (updRecord h.record.rseq f s) := fun f => within_of_regs rfl rfl
  unfold mergeInto
  dsimp only
  split
  · exact (u _).trans (within_escalate _ _ _)
  · exact u _

theorem within_ledgerRecord (i : Nat) (s : State) : Within quietReg s (ledgerRecord i s) := by
  unfold ledgerRecord
  refine within_foldl _ _ _ fun s x => ?_
  split
  · exact within_of_regs rfl rfl
  · exact .refl _ _

theorem within_postRecord (r : FaultRec) (s : State) : Within quietReg s (postRecord r s) := within_of_regs rfl rfl

theorem within_record (i : Nat) (fr : FaultRec) (full : Bool) (x : CollectorSt) (s : State) :
    Within quietReg s (ledgerRecord i (postRecord fr (wrB FCL_STATUS_FIRSTV true
      (if full then count FCL_LOST_CNT_COUNT { s with fcl := x } else { s with fcl := x })))) := by
  generalize hu : ({ s with fcl := x } : State) = u
  have a : Within quietReg s u := by subst hu; exact within_of_regs rfl rfl
  refine a.trans (Within.trans ?_ (within_ledgerRecord i _))
  refine Within.trans ?_ (within_postRecord fr _)
  refine Within.trans ?_ (within_wr (by decide) _ _)
  cases full
  · exact .refl _ _
  · exact within_countN (by decide) 1 _

theorem within_newRecord (r : Raise) (sev : Nat) (s : State) : Within quietReg s (newRecord r sev s) := by
  unfold newRecord
  exact within_record _ _ _ _ s

theorem within_fclRefresh (s : State) : Within quietReg s (fclRefresh s) := by
  have d : Within quietReg s (if maxSev s < 3 then { s with dpx := { s.dpx with yieldTold := false } } else s) := by
    split
    · exact within_of_regs rfl rfl
    · exact .refl _ _
  unfold fclRefresh refreshTakeover
  dsimp only
  refine d.trans ?_
  refine Within.trans ?_ (within_wr (by decide) _ _)
  refine Within.trans ?_ (within_wr (by decide) _ _)
  refine Within.trans ?_ (within_wr (by decide) _ _)
  refine Within.trans ?_ (within_wr (by decide) _ _)
  exact within_wr (by decide) _ _

/-- After its bit is latched, a raise keeps the Fault Status Word. -/
theorem within_raise (r : Raise) (s : State) : Within quietReg (latchSrc (srcBit r.src) (sevOf s r.src) s) (raiseSrc r s) := by
  unfold raiseSrc
  dsimp only
  refine Within.trans ?_ (within_fclRefresh _)
  split
  · exact within_react _ _
  · split
    · exact (within_mergeInto _ _ _ _).trans ((within_react _ _).trans (within_occur _ _))
    · exact (within_newRecord _ _ _).trans ((within_react _ _).trans (within_occur _ _))

/-! The Fault Status Word. -/

theorem srcBit_lt (x : Src) : srcBit x < 47 := by cases x <;> decide

theorem latched_congr {s t : State} (h0 : rdWord t 0x58000 = rdWord s 0x58000) (h1 : rdWord t 0x58004 = rdWord s 0x58004) (j : Nat) :
    latched t j = latched s j := by
  unfold latched rdBit
  simp only [rd, FCL_FSW_LO_F, FCL_FSW_HI_F, h0, h1]

theorem within_latchSrc (i sev : Nat) (s : State) : Within raiseReg s (latchSrc i sev s) := by
  have w : Within raiseReg s (setLatched i true s) := by
    unfold setLatched
    split
    · exact within_wr (f := ⟨0x58000, 0 + i, 1⟩) (by rfl) _ s
    · exact within_wr (f := ⟨0x58004, 0 + (i - 32), 1⟩) (by rfl) _ s
  exact w.trans (within_of_regs rfl rfl)

/-- Raising a source leaves everything but what `RaiseFrame` names (R398). -/
theorem raiseSrc_frame (r : Raise) (s : State) : RaiseFrame s (raiseSrc r s) :=
  (within_latchSrc _ _ s).trans ((within_raise r s).mono quiet_raise)

/-- A bit placed in a field of registers is that bit, and no other changes. -/
theorem rdBit_wrBit (f : Field) (n j : Nat) (b : Bool) (s : State) (h : f.lo + f.width ≤ 32) (hn : n < f.width) (hj : j < f.width) :
    rdBit (wrBit f n b s) f j = if j = n then b else rdBit s f j := by
  unfold rdBit wrBit
  rw [rd_testBit, rd_testBit, wr, rdWord_wrWord_same, putBits_testBit _ _ (by simp only; omega)]
  by_cases e : j = n
  · subst e
    rw [if_pos (by simp only; omega), if_pos rfl]
    cases b <;> simp [bitNat, hj, show j + f.lo - (f.lo + j) = 0 by omega]
  · rw [if_neg (by simp only; omega), if_neg e]

theorem latched_setLatched (i j : Nat) (b : Bool) (s : State) (hi : i < 47) (hj : j < 47) :
    latched (setLatched i b s) j = if j = i then b else latched s j := by
  have far : ∀ (f g : Field) (n m : Nat), g.addr ≠ f.addr → rdBit (wrBit f n b s) g m = rdBit s g m := by
    intro f g n m h
    unfold rdBit wrBit
    rw [rd_wr_addr s ⟨f.addr, f.lo + n, 1⟩ g _ h]
  unfold latched setLatched
  by_cases p : i < 32 <;> by_cases q : j < 32 <;> simp only [p, q, if_true, if_false]
  · exact rdBit_wrBit _ _ _ _ _ (by decide) p q
  · rw [far _ _ _ _ (by decide), if_neg (by omega)]
  · rw [far _ _ _ _ (by decide), if_neg (by omega)]
  · rw [rdBit_wrBit _ _ _ _ _ (by decide) (by simp only [FCL_FSW_HI_F]; omega) (by simp only [FCL_FSW_HI_F]; omega)]
    by_cases e : j = i
    · rw [if_pos (by omega), if_pos e]
    · rw [if_neg (by omega), if_neg e]

/-- Raising a source latches its bit and no other (R398). -/
theorem raiseSrc_raised (r : Raise) (s : State) : Raised r.src s (raiseSrc r s) := by
  intro j hj
  have q := (within_raise r s).2
  rw [latched_congr (q 0x58000 (by decide)) (q 0x58004 (by decide))]
  have e : latched (latchSrc (srcBit r.src) (sevOf s r.src) s) j = latched (setLatched (srcBit r.src) true s) j := rfl
  rw [e, latched_setLatched _ _ _ _ (srcBit_lt _) hj]
  by_cases h : j = srcBit r.src <;> simp [h]

end Sys2Proof.Machine
end

