-- ==== Sys2Proof/Laws/Commands.lean ====
section
/-! SUPPORT. What the shared frame of every command does: on a dead device, on a live one, and for a register write. -/

namespace Sys2Proof.Machine

set_option Elab.async false

/-- A live device runs the effect on a state with an empty record of what is sent, and keeps its queue. -/
theorem cmd_live {s : State} (h : Live s) (f : State → State) :
    cmd f s = .next { f { s with sent := [] } with pending := s.pending } := by
  have d : dead { s with sent := [] } = false := h
  simp [cmd, cmdAlways, d]

/-- A dead device does nothing. -/
theorem cmd_dead {s : State} (h : dead s = true) (f : State → State) : cmd f s = .next { s with sent := [] } := by
  have d : dead { s with sent := [] } = true := h
  simp [cmd, cmdAlways, d]

/-- A command with the effect `f` completes on a live device, as its effect is. -/
theorem completes_cmd {c : Instr} {s : State} {f : State → State} {post : State → Prop} (e : exec c s = cmd f s) (h : Live s)
    (p : post { f { s with sent := [] } with pending := s.pending }) : Completes c s post :=
  ⟨_, e.trans (cmd_live h f), p⟩

/-- A write that acts at once has its effect. -/
theorem regWrite_writable {a : Nat} {s : State} (h : Writable a s) (v : Word) (f : State → State) :
    regWrite a v f { s with sent := [] } = f { s with sent := [] } := by
  obtain ⟨_, g, d⟩ := h
  have g' : answers { s with sent := [] } a = true := g
  have d' : domainOn { s with sent := [] } (domainOf a) = true := d
  simp [regWrite, g', d']

/-- A register command that acts at once completes, as its effect is. -/
theorem completes_write {c : Instr} {a : Nat} {v : Word} {s : State} {f : State → State} {post : State → Prop}
    (e : exec c s = cmd (regWrite a v f) s) (h : Writable a s)
    (p : post { f { s with sent := [] } with pending := s.pending }) : Completes c s post :=
  completes_cmd e h.1 (by rw [regWrite_writable h]; exact p)

end Sys2Proof.Machine
end

