-- ==== Sys2Proof/Laws/State.lean ====
section
/-! SUPPORT. What each named update of the state leaves as it was, one lemma per update and field, and what it changes. -/

namespace Sys2Proof.Machine

set_option Elab.async false

/-! `wrWord` changes `regs`. -/

@[simp] theorem wrWord_time (a : Nat) (v : Word) (s : State) : (wrWord a v s).time = s.time := rfl
@[simp] theorem wrWord_tick (a : Nat) (v : Word) (s : State) : (wrWord a v s).tick = s.tick := rfl
@[simp] theorem wrWord_markAt (a : Nat) (v : Word) (s : State) : (wrWord a v s).markAt = s.markAt := rfl
@[simp] theorem wrWord_dev (a : Nat) (v : Word) (s : State) : (wrWord a v s).dev = s.dev := rfl
@[simp] theorem wrWord_conv (a : Nat) (v : Word) (s : State) : (wrWord a v s).conv = s.conv := rfl
@[simp] theorem wrWord_role (a : Nat) (v : Word) (s : State) : (wrWord a v s).role = s.role := rfl
@[simp] theorem wrWord_watch (a : Nat) (v : Word) (s : State) : (wrWord a v s).watch = s.watch := rfl
@[simp] theorem wrWord_lanesOn (a : Nat) (v : Word) (s : State) : (wrWord a v s).lanesOn = s.lanesOn := rfl
@[simp] theorem wrWord_litAt (a : Nat) (v : Word) (s : State) : (wrWord a v s).litAt = s.litAt := rfl
@[simp] theorem wrWord_freeze (a : Nat) (v : Word) (s : State) : (wrWord a v s).freeze = s.freeze := rfl
@[simp] theorem wrWord_frozen (a : Nat) (v : Word) (s : State) : (wrWord a v s).frozen = s.frozen := rfl
@[simp] theorem wrWord_suppress (a : Nat) (v : Word) (s : State) : (wrWord a v s).suppress = s.suppress := rfl
@[simp] theorem wrWord_sentWin (a : Nat) (v : Word) (s : State) : (wrWord a v s).sentWin = s.sentWin := rfl
@[simp] theorem wrWord_closeDone (a : Nat) (v : Word) (s : State) : (wrWord a v s).closeDone = s.closeDone := rfl
@[simp] theorem wrWord_frameEnd (a : Nat) (v : Word) (s : State) : (wrWord a v s).frameEnd = s.frameEnd := rfl
@[simp] theorem wrWord_misses (a : Nat) (v : Word) (s : State) : (wrWord a v s).misses = s.misses := rfl
@[simp] theorem wrWord_missDone (a : Nat) (v : Word) (s : State) : (wrWord a v s).missDone = s.missDone := rfl
@[simp] theorem wrWord_shedding (a : Nat) (v : Word) (s : State) : (wrWord a v s).shedding = s.shedding := rfl
@[simp] theorem wrWord_numChange (a : Nat) (v : Word) (s : State) : (wrWord a v s).numChange = s.numChange := rfl
@[simp] theorem wrWord_tabs (a : Nat) (v : Word) (s : State) : (wrWord a v s).tabs = s.tabs := rfl
@[simp] theorem wrWord_cells (a : Nat) (v : Word) (s : State) : (wrWord a v s).cells = s.cells := rfl
@[simp] theorem wrWord_stWrites (a : Nat) (v : Word) (s : State) : (wrWord a v s).stWrites = s.stWrites := rfl
@[simp] theorem wrWord_rateCancel (a : Nat) (v : Word) (s : State) : (wrWord a v s).rateCancel = s.rateCancel := rfl
@[simp] theorem wrWord_commitAt (a : Nat) (v : Word) (s : State) : (wrWord a v s).commitAt = s.commitAt := rfl
@[simp] theorem wrWord_batches (a : Nat) (v : Word) (s : State) : (wrWord a v s).batches = s.batches := rfl
@[simp] theorem wrWord_avails (a : Nat) (v : Word) (s : State) : (wrWord a v s).avails = s.avails := rfl
@[simp] theorem wrWord_clk (a : Nat) (v : Word) (s : State) : (wrWord a v s).clk = s.clk := rfl
@[simp] theorem wrWord_servo (a : Nat) (v : Word) (s : State) : (wrWord a v s).servo = s.servo := rfl
@[simp] theorem wrWord_lanes (a : Nat) (v : Word) (s : State) : (wrWord a v s).lanes = s.lanes := rfl
@[simp] theorem wrWord_fwJob (a : Nat) (v : Word) (s : State) : (wrWord a v s).fwJob = s.fwJob := rfl
@[simp] theorem wrWord_meas (a : Nat) (v : Word) (s : State) : (wrWord a v s).meas = s.meas := rfl
@[simp] theorem wrWord_chains (a : Nat) (v : Word) (s : State) : (wrWord a v s).chains = s.chains := rfl
@[simp] theorem wrWord_slots (a : Nat) (v : Word) (s : State) : (wrWord a v s).slots = s.slots := rfl
@[simp] theorem wrWord_loopDone (a : Nat) (v : Word) (s : State) : (wrWord a v s).loopDone = s.loopDone := rfl
@[simp] theorem wrWord_loopSeen (a : Nat) (v : Word) (s : State) : (wrWord a v s).loopSeen = s.loopSeen := rfl
@[simp] theorem wrWord_mbx (a : Nat) (v : Word) (s : State) : (wrWord a v s).mbx = s.mbx := rfl
@[simp] theorem wrWord_osc (a : Nat) (v : Word) (s : State) : (wrWord a v s).osc = s.osc := rfl
@[simp] theorem wrWord_arms (a : Nat) (v : Word) (s : State) : (wrWord a v s).arms = s.arms := rfl
@[simp] theorem wrWord_run (a : Nat) (v : Word) (s : State) : (wrWord a v s).run = s.run := rfl
@[simp] theorem wrWord_waitIn (a : Nat) (v : Word) (s : State) : (wrWord a v s).waitIn = s.waitIn := rfl
@[simp] theorem wrWord_ready (a : Nat) (v : Word) (s : State) : (wrWord a v s).ready = s.ready := rfl
@[simp] theorem wrWord_prot (a : Nat) (v : Word) (s : State) : (wrWord a v s).prot = s.prot := rfl
@[simp] theorem wrWord_dpx (a : Nat) (v : Word) (s : State) : (wrWord a v s).dpx = s.dpx := rfl
@[simp] theorem wrWord_fcl (a : Nat) (v : Word) (s : State) : (wrWord a v s).fcl = s.fcl := rfl
@[simp] theorem wrWord_bench (a : Nat) (v : Word) (s : State) : (wrWord a v s).bench = s.bench := rfl
@[simp] theorem wrWord_fmn (a : Nat) (v : Word) (s : State) : (wrWord a v s).fmn = s.fmn := rfl
@[simp] theorem wrWord_ledger (a : Nat) (v : Word) (s : State) : (wrWord a v s).ledger = s.ledger := rfl
@[simp] theorem wrWord_ctxs (a : Nat) (v : Word) (s : State) : (wrWord a v s).ctxs = s.ctxs := rfl
@[simp] theorem wrWord_accepted (a : Nat) (v : Word) (s : State) : (wrWord a v s).accepted = s.accepted := rfl
@[simp] theorem wrWord_accCount (a : Nat) (v : Word) (s : State) : (wrWord a v s).accCount = s.accCount := rfl
@[simp] theorem wrWord_net (a : Nat) (v : Word) (s : State) : (wrWord a v s).net = s.net := rfl
@[simp] theorem wrWord_sec (a : Nat) (v : Word) (s : State) : (wrWord a v s).sec = s.sec := rfl
@[simp] theorem wrWord_pwr (a : Nat) (v : Word) (s : State) : (wrWord a v s).pwr = s.pwr := rfl
@[simp] theorem wrWord_pin (a : Nat) (v : Word) (s : State) : (wrWord a v s).pin = s.pin := rfl
@[simp] theorem wrWord_sent (a : Nat) (v : Word) (s : State) : (wrWord a v s).sent = s.sent := rfl
@[simp] theorem wrWord_freeCount (a : Nat) (v : Word) (s : State) : (wrWord a v s).freeCount = s.freeCount := rfl
@[simp] theorem wrWord_pending (a : Nat) (v : Word) (s : State) : (wrWord a v s).pending = s.pending := rfl

/-! `wr` changes `regs`. -/

@[simp] theorem wr_time (f : Field) (v : Nat) (s : State) : (wr f v s).time = s.time := rfl
@[simp] theorem wr_tick (f : Field) (v : Nat) (s : State) : (wr f v s).tick = s.tick := rfl
@[simp] theorem wr_markAt (f : Field) (v : Nat) (s : State) : (wr f v s).markAt = s.markAt := rfl
@[simp] theorem wr_dev (f : Field) (v : Nat) (s : State) : (wr f v s).dev = s.dev := rfl
@[simp] theorem wr_conv (f : Field) (v : Nat) (s : State) : (wr f v s).conv = s.conv := rfl
@[simp] theorem wr_role (f : Field) (v : Nat) (s : State) : (wr f v s).role = s.role := rfl
@[simp] theorem wr_watch (f : Field) (v : Nat) (s : State) : (wr f v s).watch = s.watch := rfl
@[simp] theorem wr_lanesOn (f : Field) (v : Nat) (s : State) : (wr f v s).lanesOn = s.lanesOn := rfl
@[simp] theorem wr_litAt (f : Field) (v : Nat) (s : State) : (wr f v s).litAt = s.litAt := rfl
@[simp] theorem wr_freeze (f : Field) (v : Nat) (s : State) : (wr f v s).freeze = s.freeze := rfl
@[simp] theorem wr_frozen (f : Field) (v : Nat) (s : State) : (wr f v s).frozen = s.frozen := rfl
@[simp] theorem wr_suppress (f : Field) (v : Nat) (s : State) : (wr f v s).suppress = s.suppress := rfl
@[simp] theorem wr_sentWin (f : Field) (v : Nat) (s : State) : (wr f v s).sentWin = s.sentWin := rfl
@[simp] theorem wr_closeDone (f : Field) (v : Nat) (s : State) : (wr f v s).closeDone = s.closeDone := rfl
@[simp] theorem wr_frameEnd (f : Field) (v : Nat) (s : State) : (wr f v s).frameEnd = s.frameEnd := rfl
@[simp] theorem wr_misses (f : Field) (v : Nat) (s : State) : (wr f v s).misses = s.misses := rfl
@[simp] theorem wr_missDone (f : Field) (v : Nat) (s : State) : (wr f v s).missDone = s.missDone := rfl
@[simp] theorem wr_shedding (f : Field) (v : Nat) (s : State) : (wr f v s).shedding = s.shedding := rfl
@[simp] theorem wr_numChange (f : Field) (v : Nat) (s : State) : (wr f v s).numChange = s.numChange := rfl
@[simp] theorem wr_tabs (f : Field) (v : Nat) (s : State) : (wr f v s).tabs = s.tabs := rfl
@[simp] theorem wr_cells (f : Field) (v : Nat) (s : State) : (wr f v s).cells = s.cells := rfl
@[simp] theorem wr_stWrites (f : Field) (v : Nat) (s : State) : (wr f v s).stWrites = s.stWrites := rfl
@[simp] theorem wr_rateCancel (f : Field) (v : Nat) (s : State) : (wr f v s).rateCancel = s.rateCancel := rfl
@[simp] theorem wr_commitAt (f : Field) (v : Nat) (s : State) : (wr f v s).commitAt = s.commitAt := rfl
@[simp] theorem wr_batches (f : Field) (v : Nat) (s : State) : (wr f v s).batches = s.batches := rfl
@[simp] theorem wr_avails (f : Field) (v : Nat) (s : State) : (wr f v s).avails = s.avails := rfl
@[simp] theorem wr_clk (f : Field) (v : Nat) (s : State) : (wr f v s).clk = s.clk := rfl
@[simp] theorem wr_servo (f : Field) (v : Nat) (s : State) : (wr f v s).servo = s.servo := rfl
@[simp] theorem wr_lanes (f : Field) (v : Nat) (s : State) : (wr f v s).lanes = s.lanes := rfl
@[simp] theorem wr_fwJob (f : Field) (v : Nat) (s : State) : (wr f v s).fwJob = s.fwJob := rfl
@[simp] theorem wr_meas (f : Field) (v : Nat) (s : State) : (wr f v s).meas = s.meas := rfl
@[simp] theorem wr_chains (f : Field) (v : Nat) (s : State) : (wr f v s).chains = s.chains := rfl
@[simp] theorem wr_slots (f : Field) (v : Nat) (s : State) : (wr f v s).slots = s.slots := rfl
@[simp] theorem wr_loopDone (f : Field) (v : Nat) (s : State) : (wr f v s).loopDone = s.loopDone := rfl
@[simp] theorem wr_loopSeen (f : Field) (v : Nat) (s : State) : (wr f v s).loopSeen = s.loopSeen := rfl
@[simp] theorem wr_mbx (f : Field) (v : Nat) (s : State) : (wr f v s).mbx = s.mbx := rfl
@[simp] theorem wr_osc (f : Field) (v : Nat) (s : State) : (wr f v s).osc = s.osc := rfl
@[simp] theorem wr_arms (f : Field) (v : Nat) (s : State) : (wr f v s).arms = s.arms := rfl
@[simp] theorem wr_run (f : Field) (v : Nat) (s : State) : (wr f v s).run = s.run := rfl
@[simp] theorem wr_waitIn (f : Field) (v : Nat) (s : State) : (wr f v s).waitIn = s.waitIn := rfl
@[simp] theorem wr_ready (f : Field) (v : Nat) (s : State) : (wr f v s).ready = s.ready := rfl
@[simp] theorem wr_prot (f : Field) (v : Nat) (s : State) : (wr f v s).prot = s.prot := rfl
@[simp] theorem wr_dpx (f : Field) (v : Nat) (s : State) : (wr f v s).dpx = s.dpx := rfl
@[simp] theorem wr_fcl (f : Field) (v : Nat) (s : State) : (wr f v s).fcl = s.fcl := rfl
@[simp] theorem wr_bench (f : Field) (v : Nat) (s : State) : (wr f v s).bench = s.bench := rfl
@[simp] theorem wr_fmn (f : Field) (v : Nat) (s : State) : (wr f v s).fmn = s.fmn := rfl
@[simp] theorem wr_ledger (f : Field) (v : Nat) (s : State) : (wr f v s).ledger = s.ledger := rfl
@[simp] theorem wr_ctxs (f : Field) (v : Nat) (s : State) : (wr f v s).ctxs = s.ctxs := rfl
@[simp] theorem wr_accepted (f : Field) (v : Nat) (s : State) : (wr f v s).accepted = s.accepted := rfl
@[simp] theorem wr_accCount (f : Field) (v : Nat) (s : State) : (wr f v s).accCount = s.accCount := rfl
@[simp] theorem wr_net (f : Field) (v : Nat) (s : State) : (wr f v s).net = s.net := rfl
@[simp] theorem wr_sec (f : Field) (v : Nat) (s : State) : (wr f v s).sec = s.sec := rfl
@[simp] theorem wr_pwr (f : Field) (v : Nat) (s : State) : (wr f v s).pwr = s.pwr := rfl
@[simp] theorem wr_pin (f : Field) (v : Nat) (s : State) : (wr f v s).pin = s.pin := rfl
@[simp] theorem wr_sent (f : Field) (v : Nat) (s : State) : (wr f v s).sent = s.sent := rfl
@[simp] theorem wr_freeCount (f : Field) (v : Nat) (s : State) : (wr f v s).freeCount = s.freeCount := rfl
@[simp] theorem wr_pending (f : Field) (v : Nat) (s : State) : (wr f v s).pending = s.pending := rfl

/-! `wrB` changes `regs`. -/

@[simp] theorem wrB_time (f : Field) (b : Bool) (s : State) : (wrB f b s).time = s.time := rfl
@[simp] theorem wrB_tick (f : Field) (b : Bool) (s : State) : (wrB f b s).tick = s.tick := rfl
@[simp] theorem wrB_markAt (f : Field) (b : Bool) (s : State) : (wrB f b s).markAt = s.markAt := rfl
@[simp] theorem wrB_dev (f : Field) (b : Bool) (s : State) : (wrB f b s).dev = s.dev := rfl
@[simp] theorem wrB_conv (f : Field) (b : Bool) (s : State) : (wrB f b s).conv = s.conv := rfl
@[simp] theorem wrB_role (f : Field) (b : Bool) (s : State) : (wrB f b s).role = s.role := rfl
@[simp] theorem wrB_watch (f : Field) (b : Bool) (s : State) : (wrB f b s).watch = s.watch := rfl
@[simp] theorem wrB_lanesOn (f : Field) (b : Bool) (s : State) : (wrB f b s).lanesOn = s.lanesOn := rfl
@[simp] theorem wrB_litAt (f : Field) (b : Bool) (s : State) : (wrB f b s).litAt = s.litAt := rfl
@[simp] theorem wrB_freeze (f : Field) (b : Bool) (s : State) : (wrB f b s).freeze = s.freeze := rfl
@[simp] theorem wrB_frozen (f : Field) (b : Bool) (s : State) : (wrB f b s).frozen = s.frozen := rfl
@[simp] theorem wrB_suppress (f : Field) (b : Bool) (s : State) : (wrB f b s).suppress = s.suppress := rfl
@[simp] theorem wrB_sentWin (f : Field) (b : Bool) (s : State) : (wrB f b s).sentWin = s.sentWin := rfl
@[simp] theorem wrB_closeDone (f : Field) (b : Bool) (s : State) : (wrB f b s).closeDone = s.closeDone := rfl
@[simp] theorem wrB_frameEnd (f : Field) (b : Bool) (s : State) : (wrB f b s).frameEnd = s.frameEnd := rfl
@[simp] theorem wrB_misses (f : Field) (b : Bool) (s : State) : (wrB f b s).misses = s.misses := rfl
@[simp] theorem wrB_missDone (f : Field) (b : Bool) (s : State) : (wrB f b s).missDone = s.missDone := rfl
@[simp] theorem wrB_shedding (f : Field) (b : Bool) (s : State) : (wrB f b s).shedding = s.shedding := rfl
@[simp] theorem wrB_numChange (f : Field) (b : Bool) (s : State) : (wrB f b s).numChange = s.numChange := rfl
@[simp] theorem wrB_tabs (f : Field) (b : Bool) (s : State) : (wrB f b s).tabs = s.tabs := rfl
@[simp] theorem wrB_cells (f : Field) (b : Bool) (s : State) : (wrB f b s).cells = s.cells := rfl
@[simp] theorem wrB_stWrites (f : Field) (b : Bool) (s : State) : (wrB f b s).stWrites = s.stWrites := rfl
@[simp] theorem wrB_rateCancel (f : Field) (b : Bool) (s : State) : (wrB f b s).rateCancel = s.rateCancel := rfl
@[simp] theorem wrB_commitAt (f : Field) (b : Bool) (s : State) : (wrB f b s).commitAt = s.commitAt := rfl
@[simp] theorem wrB_batches (f : Field) (b : Bool) (s : State) : (wrB f b s).batches = s.batches := rfl
@[simp] theorem wrB_avails (f : Field) (b : Bool) (s : State) : (wrB f b s).avails = s.avails := rfl
@[simp] theorem wrB_clk (f : Field) (b : Bool) (s : State) : (wrB f b s).clk = s.clk := rfl
@[simp] theorem wrB_servo (f : Field) (b : Bool) (s : State) : (wrB f b s).servo = s.servo := rfl
@[simp] theorem wrB_lanes (f : Field) (b : Bool) (s : State) : (wrB f b s).lanes = s.lanes := rfl
@[simp] theorem wrB_fwJob (f : Field) (b : Bool) (s : State) : (wrB f b s).fwJob = s.fwJob := rfl
@[simp] theorem wrB_meas (f : Field) (b : Bool) (s : State) : (wrB f b s).meas = s.meas := rfl
@[simp] theorem wrB_chains (f : Field) (b : Bool) (s : State) : (wrB f b s).chains = s.chains := rfl
@[simp] theorem wrB_slots (f : Field) (b : Bool) (s : State) : (wrB f b s).slots = s.slots := rfl
@[simp] theorem wrB_loopDone (f : Field) (b : Bool) (s : State) : (wrB f b s).loopDone = s.loopDone := rfl
@[simp] theorem wrB_loopSeen (f : Field) (b : Bool) (s : State) : (wrB f b s).loopSeen = s.loopSeen := rfl
@[simp] theorem wrB_mbx (f : Field) (b : Bool) (s : State) : (wrB f b s).mbx = s.mbx := rfl
@[simp] theorem wrB_osc (f : Field) (b : Bool) (s : State) : (wrB f b s).osc = s.osc := rfl
@[simp] theorem wrB_arms (f : Field) (b : Bool) (s : State) : (wrB f b s).arms = s.arms := rfl
@[simp] theorem wrB_run (f : Field) (b : Bool) (s : State) : (wrB f b s).run = s.run := rfl
@[simp] theorem wrB_waitIn (f : Field) (b : Bool) (s : State) : (wrB f b s).waitIn = s.waitIn := rfl
@[simp] theorem wrB_ready (f : Field) (b : Bool) (s : State) : (wrB f b s).ready = s.ready := rfl
@[simp] theorem wrB_prot (f : Field) (b : Bool) (s : State) : (wrB f b s).prot = s.prot := rfl
@[simp] theorem wrB_dpx (f : Field) (b : Bool) (s : State) : (wrB f b s).dpx = s.dpx := rfl
@[simp] theorem wrB_fcl (f : Field) (b : Bool) (s : State) : (wrB f b s).fcl = s.fcl := rfl
@[simp] theorem wrB_bench (f : Field) (b : Bool) (s : State) : (wrB f b s).bench = s.bench := rfl
@[simp] theorem wrB_fmn (f : Field) (b : Bool) (s : State) : (wrB f b s).fmn = s.fmn := rfl
@[simp] theorem wrB_ledger (f : Field) (b : Bool) (s : State) : (wrB f b s).ledger = s.ledger := rfl
@[simp] theorem wrB_ctxs (f : Field) (b : Bool) (s : State) : (wrB f b s).ctxs = s.ctxs := rfl
@[simp] theorem wrB_accepted (f : Field) (b : Bool) (s : State) : (wrB f b s).accepted = s.accepted := rfl
@[simp] theorem wrB_accCount (f : Field) (b : Bool) (s : State) : (wrB f b s).accCount = s.accCount := rfl
@[simp] theorem wrB_net (f : Field) (b : Bool) (s : State) : (wrB f b s).net = s.net := rfl
@[simp] theorem wrB_sec (f : Field) (b : Bool) (s : State) : (wrB f b s).sec = s.sec := rfl
@[simp] theorem wrB_pwr (f : Field) (b : Bool) (s : State) : (wrB f b s).pwr = s.pwr := rfl
@[simp] theorem wrB_pin (f : Field) (b : Bool) (s : State) : (wrB f b s).pin = s.pin := rfl
@[simp] theorem wrB_sent (f : Field) (b : Bool) (s : State) : (wrB f b s).sent = s.sent := rfl
@[simp] theorem wrB_freeCount (f : Field) (b : Bool) (s : State) : (wrB f b s).freeCount = s.freeCount := rfl
@[simp] theorem wrB_pending (f : Field) (b : Bool) (s : State) : (wrB f b s).pending = s.pending := rfl

/-! `wrI` changes `regs`. -/

@[simp] theorem wrI_time (f : Field) (v : Int) (s : State) : (wrI f v s).time = s.time := rfl
@[simp] theorem wrI_tick (f : Field) (v : Int) (s : State) : (wrI f v s).tick = s.tick := rfl
@[simp] theorem wrI_markAt (f : Field) (v : Int) (s : State) : (wrI f v s).markAt = s.markAt := rfl
@[simp] theorem wrI_dev (f : Field) (v : Int) (s : State) : (wrI f v s).dev = s.dev := rfl
@[simp] theorem wrI_conv (f : Field) (v : Int) (s : State) : (wrI f v s).conv = s.conv := rfl
@[simp] theorem wrI_role (f : Field) (v : Int) (s : State) : (wrI f v s).role = s.role := rfl
@[simp] theorem wrI_watch (f : Field) (v : Int) (s : State) : (wrI f v s).watch = s.watch := rfl
@[simp] theorem wrI_lanesOn (f : Field) (v : Int) (s : State) : (wrI f v s).lanesOn = s.lanesOn := rfl
@[simp] theorem wrI_litAt (f : Field) (v : Int) (s : State) : (wrI f v s).litAt = s.litAt := rfl
@[simp] theorem wrI_freeze (f : Field) (v : Int) (s : State) : (wrI f v s).freeze = s.freeze := rfl
@[simp] theorem wrI_frozen (f : Field) (v : Int) (s : State) : (wrI f v s).frozen = s.frozen := rfl
@[simp] theorem wrI_suppress (f : Field) (v : Int) (s : State) : (wrI f v s).suppress = s.suppress := rfl
@[simp] theorem wrI_sentWin (f : Field) (v : Int) (s : State) : (wrI f v s).sentWin = s.sentWin := rfl
@[simp] theorem wrI_closeDone (f : Field) (v : Int) (s : State) : (wrI f v s).closeDone = s.closeDone := rfl
@[simp] theorem wrI_frameEnd (f : Field) (v : Int) (s : State) : (wrI f v s).frameEnd = s.frameEnd := rfl
@[simp] theorem wrI_misses (f : Field) (v : Int) (s : State) : (wrI f v s).misses = s.misses := rfl
@[simp] theorem wrI_missDone (f : Field) (v : Int) (s : State) : (wrI f v s).missDone = s.missDone := rfl
@[simp] theorem wrI_shedding (f : Field) (v : Int) (s : State) : (wrI f v s).shedding = s.shedding := rfl
@[simp] theorem wrI_numChange (f : Field) (v : Int) (s : State) : (wrI f v s).numChange = s.numChange := rfl
@[simp] theorem wrI_tabs (f : Field) (v : Int) (s : State) : (wrI f v s).tabs = s.tabs := rfl
@[simp] theorem wrI_cells (f : Field) (v : Int) (s : State) : (wrI f v s).cells = s.cells := rfl
@[simp] theorem wrI_stWrites (f : Field) (v : Int) (s : State) : (wrI f v s).stWrites = s.stWrites := rfl
@[simp] theorem wrI_rateCancel (f : Field) (v : Int) (s : State) : (wrI f v s).rateCancel = s.rateCancel := rfl
@[simp] theorem wrI_commitAt (f : Field) (v : Int) (s : State) : (wrI f v s).commitAt = s.commitAt := rfl
@[simp] theorem wrI_batches (f : Field) (v : Int) (s : State) : (wrI f v s).batches = s.batches := rfl
@[simp] theorem wrI_avails (f : Field) (v : Int) (s : State) : (wrI f v s).avails = s.avails := rfl
@[simp] theorem wrI_clk (f : Field) (v : Int) (s : State) : (wrI f v s).clk = s.clk := rfl
@[simp] theorem wrI_servo (f : Field) (v : Int) (s : State) : (wrI f v s).servo = s.servo := rfl
@[simp] theorem wrI_lanes (f : Field) (v : Int) (s : State) : (wrI f v s).lanes = s.lanes := rfl
@[simp] theorem wrI_fwJob (f : Field) (v : Int) (s : State) : (wrI f v s).fwJob = s.fwJob := rfl
@[simp] theorem wrI_meas (f : Field) (v : Int) (s : State) : (wrI f v s).meas = s.meas := rfl
@[simp] theorem wrI_chains (f : Field) (v : Int) (s : State) : (wrI f v s).chains = s.chains := rfl
@[simp] theorem wrI_slots (f : Field) (v : Int) (s : State) : (wrI f v s).slots = s.slots := rfl
@[simp] theorem wrI_loopDone (f : Field) (v : Int) (s : State) : (wrI f v s).loopDone = s.loopDone := rfl
@[simp] theorem wrI_loopSeen (f : Field) (v : Int) (s : State) : (wrI f v s).loopSeen = s.loopSeen := rfl
@[simp] theorem wrI_mbx (f : Field) (v : Int) (s : State) : (wrI f v s).mbx = s.mbx := rfl
@[simp] theorem wrI_osc (f : Field) (v : Int) (s : State) : (wrI f v s).osc = s.osc := rfl
@[simp] theorem wrI_arms (f : Field) (v : Int) (s : State) : (wrI f v s).arms = s.arms := rfl
@[simp] theorem wrI_run (f : Field) (v : Int) (s : State) : (wrI f v s).run = s.run := rfl
@[simp] theorem wrI_waitIn (f : Field) (v : Int) (s : State) : (wrI f v s).waitIn = s.waitIn := rfl
@[simp] theorem wrI_ready (f : Field) (v : Int) (s : State) : (wrI f v s).ready = s.ready := rfl
@[simp] theorem wrI_prot (f : Field) (v : Int) (s : State) : (wrI f v s).prot = s.prot := rfl
@[simp] theorem wrI_dpx (f : Field) (v : Int) (s : State) : (wrI f v s).dpx = s.dpx := rfl
@[simp] theorem wrI_fcl (f : Field) (v : Int) (s : State) : (wrI f v s).fcl = s.fcl := rfl
@[simp] theorem wrI_bench (f : Field) (v : Int) (s : State) : (wrI f v s).bench = s.bench := rfl
@[simp] theorem wrI_fmn (f : Field) (v : Int) (s : State) : (wrI f v s).fmn = s.fmn := rfl
@[simp] theorem wrI_ledger (f : Field) (v : Int) (s : State) : (wrI f v s).ledger = s.ledger := rfl
@[simp] theorem wrI_ctxs (f : Field) (v : Int) (s : State) : (wrI f v s).ctxs = s.ctxs := rfl
@[simp] theorem wrI_accepted (f : Field) (v : Int) (s : State) : (wrI f v s).accepted = s.accepted := rfl
@[simp] theorem wrI_accCount (f : Field) (v : Int) (s : State) : (wrI f v s).accCount = s.accCount := rfl
@[simp] theorem wrI_net (f : Field) (v : Int) (s : State) : (wrI f v s).net = s.net := rfl
@[simp] theorem wrI_sec (f : Field) (v : Int) (s : State) : (wrI f v s).sec = s.sec := rfl
@[simp] theorem wrI_pwr (f : Field) (v : Int) (s : State) : (wrI f v s).pwr = s.pwr := rfl
@[simp] theorem wrI_pin (f : Field) (v : Int) (s : State) : (wrI f v s).pin = s.pin := rfl
@[simp] theorem wrI_sent (f : Field) (v : Int) (s : State) : (wrI f v s).sent = s.sent := rfl
@[simp] theorem wrI_freeCount (f : Field) (v : Int) (s : State) : (wrI f v s).freeCount = s.freeCount := rfl
@[simp] theorem wrI_pending (f : Field) (v : Int) (s : State) : (wrI f v s).pending = s.pending := rfl

/-! `wrBit` changes `regs`. -/

@[simp] theorem wrBit_time (f : Field) (n : Nat) (b : Bool) (s : State) : (wrBit f n b s).time = s.time := rfl
@[simp] theorem wrBit_tick (f : Field) (n : Nat) (b : Bool) (s : State) : (wrBit f n b s).tick = s.tick := rfl
@[simp] theorem wrBit_markAt (f : Field) (n : Nat) (b : Bool) (s : State) : (wrBit f n b s).markAt = s.markAt := rfl
@[simp] theorem wrBit_dev (f : Field) (n : Nat) (b : Bool) (s : State) : (wrBit f n b s).dev = s.dev := rfl
@[simp] theorem wrBit_conv (f : Field) (n : Nat) (b : Bool) (s : State) : (wrBit f n b s).conv = s.conv := rfl
@[simp] theorem wrBit_role (f : Field) (n : Nat) (b : Bool) (s : State) : (wrBit f n b s).role = s.role := rfl
@[simp] theorem wrBit_watch (f : Field) (n : Nat) (b : Bool) (s : State) : (wrBit f n b s).watch = s.watch := rfl
@[simp] theorem wrBit_lanesOn (f : Field) (n : Nat) (b : Bool) (s : State) : (wrBit f n b s).lanesOn = s.lanesOn := rfl
@[simp] theorem wrBit_litAt (f : Field) (n : Nat) (b : Bool) (s : State) : (wrBit f n b s).litAt = s.litAt := rfl
@[simp] theorem wrBit_freeze (f : Field) (n : Nat) (b : Bool) (s : State) : (wrBit f n b s).freeze = s.freeze := rfl
@[simp] theorem wrBit_frozen (f : Field) (n : Nat) (b : Bool) (s : State) : (wrBit f n b s).frozen = s.frozen := rfl
@[simp] theorem wrBit_suppress (f : Field) (n : Nat) (b : Bool) (s : State) : (wrBit f n b s).suppress = s.suppress := rfl
@[simp] theorem wrBit_sentWin (f : Field) (n : Nat) (b : Bool) (s : State) : (wrBit f n b s).sentWin = s.sentWin := rfl
@[simp] theorem wrBit_closeDone (f : Field) (n : Nat) (b : Bool) (s : State) : (wrBit f n b s).closeDone = s.closeDone := rfl
@[simp] theorem wrBit_frameEnd (f : Field) (n : Nat) (b : Bool) (s : State) : (wrBit f n b s).frameEnd = s.frameEnd := rfl
@[simp] theorem wrBit_misses (f : Field) (n : Nat) (b : Bool) (s : State) : (wrBit f n b s).misses = s.misses := rfl
@[simp] theorem wrBit_missDone (f : Field) (n : Nat) (b : Bool) (s : State) : (wrBit f n b s).missDone = s.missDone := rfl
@[simp] theorem wrBit_shedding (f : Field) (n : Nat) (b : Bool) (s : State) : (wrBit f n b s).shedding = s.shedding := rfl
@[simp] theorem wrBit_numChange (f : Field) (n : Nat) (b : Bool) (s : State) : (wrBit f n b s).numChange = s.numChange := rfl
@[simp] theorem wrBit_tabs (f : Field) (n : Nat) (b : Bool) (s : State) : (wrBit f n b s).tabs = s.tabs := rfl
@[simp] theorem wrBit_cells (f : Field) (n : Nat) (b : Bool) (s : State) : (wrBit f n b s).cells = s.cells := rfl
@[simp] theorem wrBit_stWrites (f : Field) (n : Nat) (b : Bool) (s : State) : (wrBit f n b s).stWrites = s.stWrites := rfl
@[simp] theorem wrBit_rateCancel (f : Field) (n : Nat) (b : Bool) (s : State) : (wrBit f n b s).rateCancel = s.rateCancel := rfl
@[simp] theorem wrBit_commitAt (f : Field) (n : Nat) (b : Bool) (s : State) : (wrBit f n b s).commitAt = s.commitAt := rfl
@[simp] theorem wrBit_batches (f : Field) (n : Nat) (b : Bool) (s : State) : (wrBit f n b s).batches = s.batches := rfl
@[simp] theorem wrBit_avails (f : Field) (n : Nat) (b : Bool) (s : State) : (wrBit f n b s).avails = s.avails := rfl
@[simp] theorem wrBit_clk (f : Field) (n : Nat) (b : Bool) (s : State) : (wrBit f n b s).clk = s.clk := rfl
@[simp] theorem wrBit_servo (f : Field) (n : Nat) (b : Bool) (s : State) : (wrBit f n b s).servo = s.servo := rfl
@[simp] theorem wrBit_lanes (f : Field) (n : Nat) (b : Bool) (s : State) : (wrBit f n b s).lanes = s.lanes := rfl
@[simp] theorem wrBit_fwJob (f : Field) (n : Nat) (b : Bool) (s : State) : (wrBit f n b s).fwJob = s.fwJob := rfl
@[simp] theorem wrBit_meas (f : Field) (n : Nat) (b : Bool) (s : State) : (wrBit f n b s).meas = s.meas := rfl
@[simp] theorem wrBit_chains (f : Field) (n : Nat) (b : Bool) (s : State) : (wrBit f n b s).chains = s.chains := rfl
@[simp] theorem wrBit_slots (f : Field) (n : Nat) (b : Bool) (s : State) : (wrBit f n b s).slots = s.slots := rfl
@[simp] theorem wrBit_loopDone (f : Field) (n : Nat) (b : Bool) (s : State) : (wrBit f n b s).loopDone = s.loopDone := rfl
@[simp] theorem wrBit_loopSeen (f : Field) (n : Nat) (b : Bool) (s : State) : (wrBit f n b s).loopSeen = s.loopSeen := rfl
@[simp] theorem wrBit_mbx (f : Field) (n : Nat) (b : Bool) (s : State) : (wrBit f n b s).mbx = s.mbx := rfl
@[simp] theorem wrBit_osc (f : Field) (n : Nat) (b : Bool) (s : State) : (wrBit f n b s).osc = s.osc := rfl
@[simp] theorem wrBit_arms (f : Field) (n : Nat) (b : Bool) (s : State) : (wrBit f n b s).arms = s.arms := rfl
@[simp] theorem wrBit_run (f : Field) (n : Nat) (b : Bool) (s : State) : (wrBit f n b s).run = s.run := rfl
@[simp] theorem wrBit_waitIn (f : Field) (n : Nat) (b : Bool) (s : State) : (wrBit f n b s).waitIn = s.waitIn := rfl
@[simp] theorem wrBit_ready (f : Field) (n : Nat) (b : Bool) (s : State) : (wrBit f n b s).ready = s.ready := rfl
@[simp] theorem wrBit_prot (f : Field) (n : Nat) (b : Bool) (s : State) : (wrBit f n b s).prot = s.prot := rfl
@[simp] theorem wrBit_dpx (f : Field) (n : Nat) (b : Bool) (s : State) : (wrBit f n b s).dpx = s.dpx := rfl
@[simp] theorem wrBit_fcl (f : Field) (n : Nat) (b : Bool) (s : State) : (wrBit f n b s).fcl = s.fcl := rfl
@[simp] theorem wrBit_bench (f : Field) (n : Nat) (b : Bool) (s : State) : (wrBit f n b s).bench = s.bench := rfl
@[simp] theorem wrBit_fmn (f : Field) (n : Nat) (b : Bool) (s : State) : (wrBit f n b s).fmn = s.fmn := rfl
@[simp] theorem wrBit_ledger (f : Field) (n : Nat) (b : Bool) (s : State) : (wrBit f n b s).ledger = s.ledger := rfl
@[simp] theorem wrBit_ctxs (f : Field) (n : Nat) (b : Bool) (s : State) : (wrBit f n b s).ctxs = s.ctxs := rfl
@[simp] theorem wrBit_accepted (f : Field) (n : Nat) (b : Bool) (s : State) : (wrBit f n b s).accepted = s.accepted := rfl
@[simp] theorem wrBit_accCount (f : Field) (n : Nat) (b : Bool) (s : State) : (wrBit f n b s).accCount = s.accCount := rfl
@[simp] theorem wrBit_net (f : Field) (n : Nat) (b : Bool) (s : State) : (wrBit f n b s).net = s.net := rfl
@[simp] theorem wrBit_sec (f : Field) (n : Nat) (b : Bool) (s : State) : (wrBit f n b s).sec = s.sec := rfl
@[simp] theorem wrBit_pwr (f : Field) (n : Nat) (b : Bool) (s : State) : (wrBit f n b s).pwr = s.pwr := rfl
@[simp] theorem wrBit_pin (f : Field) (n : Nat) (b : Bool) (s : State) : (wrBit f n b s).pin = s.pin := rfl
@[simp] theorem wrBit_sent (f : Field) (n : Nat) (b : Bool) (s : State) : (wrBit f n b s).sent = s.sent := rfl
@[simp] theorem wrBit_freeCount (f : Field) (n : Nat) (b : Bool) (s : State) : (wrBit f n b s).freeCount = s.freeCount := rfl
@[simp] theorem wrBit_pending (f : Field) (n : Nat) (b : Bool) (s : State) : (wrBit f n b s).pending = s.pending := rfl

/-! `countN` changes `regs`. -/

@[simp] theorem countN_time (f : Field) (n : Nat) (s : State) : (countN f n s).time = s.time := by rw [countN_eq]
@[simp] theorem countN_tick (f : Field) (n : Nat) (s : State) : (countN f n s).tick = s.tick := by rw [countN_eq]
@[simp] theorem countN_markAt (f : Field) (n : Nat) (s : State) : (countN f n s).markAt = s.markAt := by rw [countN_eq]
@[simp] theorem countN_dev (f : Field) (n : Nat) (s : State) : (countN f n s).dev = s.dev := by rw [countN_eq]
@[simp] theorem countN_conv (f : Field) (n : Nat) (s : State) : (countN f n s).conv = s.conv := by rw [countN_eq]
@[simp] theorem countN_role (f : Field) (n : Nat) (s : State) : (countN f n s).role = s.role := by rw [countN_eq]
@[simp] theorem countN_watch (f : Field) (n : Nat) (s : State) : (countN f n s).watch = s.watch := by rw [countN_eq]
@[simp] theorem countN_lanesOn (f : Field) (n : Nat) (s : State) : (countN f n s).lanesOn = s.lanesOn := by rw [countN_eq]
@[simp] theorem countN_litAt (f : Field) (n : Nat) (s : State) : (countN f n s).litAt = s.litAt := by rw [countN_eq]
@[simp] theorem countN_freeze (f : Field) (n : Nat) (s : State) : (countN f n s).freeze = s.freeze := by rw [countN_eq]
@[simp] theorem countN_frozen (f : Field) (n : Nat) (s : State) : (countN f n s).frozen = s.frozen := by rw [countN_eq]
@[simp] theorem countN_suppress (f : Field) (n : Nat) (s : State) : (countN f n s).suppress = s.suppress := by rw [countN_eq]
@[simp] theorem countN_sentWin (f : Field) (n : Nat) (s : State) : (countN f n s).sentWin = s.sentWin := by rw [countN_eq]
@[simp] theorem countN_closeDone (f : Field) (n : Nat) (s : State) : (countN f n s).closeDone = s.closeDone := by rw [countN_eq]
@[simp] theorem countN_frameEnd (f : Field) (n : Nat) (s : State) : (countN f n s).frameEnd = s.frameEnd := by rw [countN_eq]
@[simp] theorem countN_misses (f : Field) (n : Nat) (s : State) : (countN f n s).misses = s.misses := by rw [countN_eq]
@[simp] theorem countN_missDone (f : Field) (n : Nat) (s : State) : (countN f n s).missDone = s.missDone := by rw [countN_eq]
@[simp] theorem countN_shedding (f : Field) (n : Nat) (s : State) : (countN f n s).shedding = s.shedding := by rw [countN_eq]
@[simp] theorem countN_numChange (f : Field) (n : Nat) (s : State) : (countN f n s).numChange = s.numChange := by rw [countN_eq]
@[simp] theorem countN_tabs (f : Field) (n : Nat) (s : State) : (countN f n s).tabs = s.tabs := by rw [countN_eq]
@[simp] theorem countN_cells (f : Field) (n : Nat) (s : State) : (countN f n s).cells = s.cells := by rw [countN_eq]
@[simp] theorem countN_stWrites (f : Field) (n : Nat) (s : State) : (countN f n s).stWrites = s.stWrites := by rw [countN_eq]
@[simp] theorem countN_rateCancel (f : Field) (n : Nat) (s : State) : (countN f n s).rateCancel = s.rateCancel := by rw [countN_eq]
@[simp] theorem countN_commitAt (f : Field) (n : Nat) (s : State) : (countN f n s).commitAt = s.commitAt := by rw [countN_eq]
@[simp] theorem countN_batches (f : Field) (n : Nat) (s : State) : (countN f n s).batches = s.batches := by rw [countN_eq]
@[simp] theorem countN_avails (f : Field) (n : Nat) (s : State) : (countN f n s).avails = s.avails := by rw [countN_eq]
@[simp] theorem countN_clk (f : Field) (n : Nat) (s : State) : (countN f n s).clk = s.clk := by rw [countN_eq]
@[simp] theorem countN_servo (f : Field) (n : Nat) (s : State) : (countN f n s).servo = s.servo := by rw [countN_eq]
@[simp] theorem countN_lanes (f : Field) (n : Nat) (s : State) : (countN f n s).lanes = s.lanes := by rw [countN_eq]
@[simp] theorem countN_fwJob (f : Field) (n : Nat) (s : State) : (countN f n s).fwJob = s.fwJob := by rw [countN_eq]
@[simp] theorem countN_meas (f : Field) (n : Nat) (s : State) : (countN f n s).meas = s.meas := by rw [countN_eq]
@[simp] theorem countN_chains (f : Field) (n : Nat) (s : State) : (countN f n s).chains = s.chains := by rw [countN_eq]
@[simp] theorem countN_slots (f : Field) (n : Nat) (s : State) : (countN f n s).slots = s.slots := by rw [countN_eq]
@[simp] theorem countN_loopDone (f : Field) (n : Nat) (s : State) : (countN f n s).loopDone = s.loopDone := by rw [countN_eq]
@[simp] theorem countN_loopSeen (f : Field) (n : Nat) (s : State) : (countN f n s).loopSeen = s.loopSeen := by rw [countN_eq]
@[simp] theorem countN_mbx (f : Field) (n : Nat) (s : State) : (countN f n s).mbx = s.mbx := by rw [countN_eq]
@[simp] theorem countN_osc (f : Field) (n : Nat) (s : State) : (countN f n s).osc = s.osc := by rw [countN_eq]
@[simp] theorem countN_arms (f : Field) (n : Nat) (s : State) : (countN f n s).arms = s.arms := by rw [countN_eq]
@[simp] theorem countN_run (f : Field) (n : Nat) (s : State) : (countN f n s).run = s.run := by rw [countN_eq]
@[simp] theorem countN_waitIn (f : Field) (n : Nat) (s : State) : (countN f n s).waitIn = s.waitIn := by rw [countN_eq]
@[simp] theorem countN_ready (f : Field) (n : Nat) (s : State) : (countN f n s).ready = s.ready := by rw [countN_eq]
@[simp] theorem countN_prot (f : Field) (n : Nat) (s : State) : (countN f n s).prot = s.prot := by rw [countN_eq]
@[simp] theorem countN_dpx (f : Field) (n : Nat) (s : State) : (countN f n s).dpx = s.dpx := by rw [countN_eq]
@[simp] theorem countN_fcl (f : Field) (n : Nat) (s : State) : (countN f n s).fcl = s.fcl := by rw [countN_eq]
@[simp] theorem countN_bench (f : Field) (n : Nat) (s : State) : (countN f n s).bench = s.bench := by rw [countN_eq]
@[simp] theorem countN_fmn (f : Field) (n : Nat) (s : State) : (countN f n s).fmn = s.fmn := by rw [countN_eq]
@[simp] theorem countN_ledger (f : Field) (n : Nat) (s : State) : (countN f n s).ledger = s.ledger := by rw [countN_eq]
@[simp] theorem countN_ctxs (f : Field) (n : Nat) (s : State) : (countN f n s).ctxs = s.ctxs := by rw [countN_eq]
@[simp] theorem countN_accepted (f : Field) (n : Nat) (s : State) : (countN f n s).accepted = s.accepted := by rw [countN_eq]
@[simp] theorem countN_accCount (f : Field) (n : Nat) (s : State) : (countN f n s).accCount = s.accCount := by rw [countN_eq]
@[simp] theorem countN_net (f : Field) (n : Nat) (s : State) : (countN f n s).net = s.net := by rw [countN_eq]
@[simp] theorem countN_sec (f : Field) (n : Nat) (s : State) : (countN f n s).sec = s.sec := by rw [countN_eq]
@[simp] theorem countN_pwr (f : Field) (n : Nat) (s : State) : (countN f n s).pwr = s.pwr := by rw [countN_eq]
@[simp] theorem countN_pin (f : Field) (n : Nat) (s : State) : (countN f n s).pin = s.pin := by rw [countN_eq]
@[simp] theorem countN_sent (f : Field) (n : Nat) (s : State) : (countN f n s).sent = s.sent := by rw [countN_eq]
@[simp] theorem countN_freeCount (f : Field) (n : Nat) (s : State) : (countN f n s).freeCount = s.freeCount := by rw [countN_eq]
@[simp] theorem countN_pending (f : Field) (n : Nat) (s : State) : (countN f n s).pending = s.pending := by rw [countN_eq]

/-! `modCell` changes `cells`. -/

@[simp] theorem modCell_time (a : Nat) (f : Cell → Cell) (s : State) : (modCell a f s).time = s.time := rfl
@[simp] theorem modCell_tick (a : Nat) (f : Cell → Cell) (s : State) : (modCell a f s).tick = s.tick := rfl
@[simp] theorem modCell_markAt (a : Nat) (f : Cell → Cell) (s : State) : (modCell a f s).markAt = s.markAt := rfl
@[simp] theorem modCell_dev (a : Nat) (f : Cell → Cell) (s : State) : (modCell a f s).dev = s.dev := rfl
@[simp] theorem modCell_conv (a : Nat) (f : Cell → Cell) (s : State) : (modCell a f s).conv = s.conv := rfl
@[simp] theorem modCell_role (a : Nat) (f : Cell → Cell) (s : State) : (modCell a f s).role = s.role := rfl
@[simp] theorem modCell_watch (a : Nat) (f : Cell → Cell) (s : State) : (modCell a f s).watch = s.watch := rfl
@[simp] theorem modCell_lanesOn (a : Nat) (f : Cell → Cell) (s : State) : (modCell a f s).lanesOn = s.lanesOn := rfl
@[simp] theorem modCell_litAt (a : Nat) (f : Cell → Cell) (s : State) : (modCell a f s).litAt = s.litAt := rfl
@[simp] theorem modCell_freeze (a : Nat) (f : Cell → Cell) (s : State) : (modCell a f s).freeze = s.freeze := rfl
@[simp] theorem modCell_frozen (a : Nat) (f : Cell → Cell) (s : State) : (modCell a f s).frozen = s.frozen := rfl
@[simp] theorem modCell_suppress (a : Nat) (f : Cell → Cell) (s : State) : (modCell a f s).suppress = s.suppress := rfl
@[simp] theorem modCell_sentWin (a : Nat) (f : Cell → Cell) (s : State) : (modCell a f s).sentWin = s.sentWin := rfl
@[simp] theorem modCell_closeDone (a : Nat) (f : Cell → Cell) (s : State) : (modCell a f s).closeDone = s.closeDone := rfl
@[simp] theorem modCell_frameEnd (a : Nat) (f : Cell → Cell) (s : State) : (modCell a f s).frameEnd = s.frameEnd := rfl
@[simp] theorem modCell_misses (a : Nat) (f : Cell → Cell) (s : State) : (modCell a f s).misses = s.misses := rfl
@[simp] theorem modCell_missDone (a : Nat) (f : Cell → Cell) (s : State) : (modCell a f s).missDone = s.missDone := rfl
@[simp] theorem modCell_shedding (a : Nat) (f : Cell → Cell) (s : State) : (modCell a f s).shedding = s.shedding := rfl
@[simp] theorem modCell_numChange (a : Nat) (f : Cell → Cell) (s : State) : (modCell a f s).numChange = s.numChange := rfl
@[simp] theorem modCell_regs (a : Nat) (f : Cell → Cell) (s : State) : (modCell a f s).regs = s.regs := rfl
@[simp] theorem modCell_tabs (a : Nat) (f : Cell → Cell) (s : State) : (modCell a f s).tabs = s.tabs := rfl
@[simp] theorem modCell_stWrites (a : Nat) (f : Cell → Cell) (s : State) : (modCell a f s).stWrites = s.stWrites := rfl
@[simp] theorem modCell_rateCancel (a : Nat) (f : Cell → Cell) (s : State) : (modCell a f s).rateCancel = s.rateCancel := rfl
@[simp] theorem modCell_commitAt (a : Nat) (f : Cell → Cell) (s : State) : (modCell a f s).commitAt = s.commitAt := rfl
@[simp] theorem modCell_batches (a : Nat) (f : Cell → Cell) (s : State) : (modCell a f s).batches = s.batches := rfl
@[simp] theorem modCell_avails (a : Nat) (f : Cell → Cell) (s : State) : (modCell a f s).avails = s.avails := rfl
@[simp] theorem modCell_clk (a : Nat) (f : Cell → Cell) (s : State) : (modCell a f s).clk = s.clk := rfl
@[simp] theorem modCell_servo (a : Nat) (f : Cell → Cell) (s : State) : (modCell a f s).servo = s.servo := rfl
@[simp] theorem modCell_lanes (a : Nat) (f : Cell → Cell) (s : State) : (modCell a f s).lanes = s.lanes := rfl
@[simp] theorem modCell_fwJob (a : Nat) (f : Cell → Cell) (s : State) : (modCell a f s).fwJob = s.fwJob := rfl
@[simp] theorem modCell_meas (a : Nat) (f : Cell → Cell) (s : State) : (modCell a f s).meas = s.meas := rfl
@[simp] theorem modCell_chains (a : Nat) (f : Cell → Cell) (s : State) : (modCell a f s).chains = s.chains := rfl
@[simp] theorem modCell_slots (a : Nat) (f : Cell → Cell) (s : State) : (modCell a f s).slots = s.slots := rfl
@[simp] theorem modCell_loopDone (a : Nat) (f : Cell → Cell) (s : State) : (modCell a f s).loopDone = s.loopDone := rfl
@[simp] theorem modCell_loopSeen (a : Nat) (f : Cell → Cell) (s : State) : (modCell a f s).loopSeen = s.loopSeen := rfl
@[simp] theorem modCell_mbx (a : Nat) (f : Cell → Cell) (s : State) : (modCell a f s).mbx = s.mbx := rfl
@[simp] theorem modCell_osc (a : Nat) (f : Cell → Cell) (s : State) : (modCell a f s).osc = s.osc := rfl
@[simp] theorem modCell_arms (a : Nat) (f : Cell → Cell) (s : State) : (modCell a f s).arms = s.arms := rfl
@[simp] theorem modCell_run (a : Nat) (f : Cell → Cell) (s : State) : (modCell a f s).run = s.run := rfl
@[simp] theorem modCell_waitIn (a : Nat) (f : Cell → Cell) (s : State) : (modCell a f s).waitIn = s.waitIn := rfl
@[simp] theorem modCell_ready (a : Nat) (f : Cell → Cell) (s : State) : (modCell a f s).ready = s.ready := rfl
@[simp] theorem modCell_prot (a : Nat) (f : Cell → Cell) (s : State) : (modCell a f s).prot = s.prot := rfl
@[simp] theorem modCell_dpx (a : Nat) (f : Cell → Cell) (s : State) : (modCell a f s).dpx = s.dpx := rfl
@[simp] theorem modCell_fcl (a : Nat) (f : Cell → Cell) (s : State) : (modCell a f s).fcl = s.fcl := rfl
@[simp] theorem modCell_bench (a : Nat) (f : Cell → Cell) (s : State) : (modCell a f s).bench = s.bench := rfl
@[simp] theorem modCell_fmn (a : Nat) (f : Cell → Cell) (s : State) : (modCell a f s).fmn = s.fmn := rfl
@[simp] theorem modCell_ledger (a : Nat) (f : Cell → Cell) (s : State) : (modCell a f s).ledger = s.ledger := rfl
@[simp] theorem modCell_ctxs (a : Nat) (f : Cell → Cell) (s : State) : (modCell a f s).ctxs = s.ctxs := rfl
@[simp] theorem modCell_accepted (a : Nat) (f : Cell → Cell) (s : State) : (modCell a f s).accepted = s.accepted := rfl
@[simp] theorem modCell_accCount (a : Nat) (f : Cell → Cell) (s : State) : (modCell a f s).accCount = s.accCount := rfl
@[simp] theorem modCell_net (a : Nat) (f : Cell → Cell) (s : State) : (modCell a f s).net = s.net := rfl
@[simp] theorem modCell_sec (a : Nat) (f : Cell → Cell) (s : State) : (modCell a f s).sec = s.sec := rfl
@[simp] theorem modCell_pwr (a : Nat) (f : Cell → Cell) (s : State) : (modCell a f s).pwr = s.pwr := rfl
@[simp] theorem modCell_pin (a : Nat) (f : Cell → Cell) (s : State) : (modCell a f s).pin = s.pin := rfl
@[simp] theorem modCell_sent (a : Nat) (f : Cell → Cell) (s : State) : (modCell a f s).sent = s.sent := rfl
@[simp] theorem modCell_freeCount (a : Nat) (f : Cell → Cell) (s : State) : (modCell a f s).freeCount = s.freeCount := rfl
@[simp] theorem modCell_pending (a : Nat) (f : Cell → Cell) (s : State) : (modCell a f s).pending = s.pending := rfl

/-! `emit` changes `sent`. -/

@[simp] theorem emit_time (e : Emission) (s : State) : (emit e s).time = s.time := rfl
@[simp] theorem emit_tick (e : Emission) (s : State) : (emit e s).tick = s.tick := rfl
@[simp] theorem emit_markAt (e : Emission) (s : State) : (emit e s).markAt = s.markAt := rfl
@[simp] theorem emit_dev (e : Emission) (s : State) : (emit e s).dev = s.dev := rfl
@[simp] theorem emit_conv (e : Emission) (s : State) : (emit e s).conv = s.conv := rfl
@[simp] theorem emit_role (e : Emission) (s : State) : (emit e s).role = s.role := rfl
@[simp] theorem emit_watch (e : Emission) (s : State) : (emit e s).watch = s.watch := rfl
@[simp] theorem emit_lanesOn (e : Emission) (s : State) : (emit e s).lanesOn = s.lanesOn := rfl
@[simp] theorem emit_litAt (e : Emission) (s : State) : (emit e s).litAt = s.litAt := rfl
@[simp] theorem emit_freeze (e : Emission) (s : State) : (emit e s).freeze = s.freeze := rfl
@[simp] theorem emit_frozen (e : Emission) (s : State) : (emit e s).frozen = s.frozen := rfl
@[simp] theorem emit_suppress (e : Emission) (s : State) : (emit e s).suppress = s.suppress := rfl
@[simp] theorem emit_sentWin (e : Emission) (s : State) : (emit e s).sentWin = s.sentWin := rfl
@[simp] theorem emit_closeDone (e : Emission) (s : State) : (emit e s).closeDone = s.closeDone := rfl
@[simp] theorem emit_frameEnd (e : Emission) (s : State) : (emit e s).frameEnd = s.frameEnd := rfl
@[simp] theorem emit_misses (e : Emission) (s : State) : (emit e s).misses = s.misses := rfl
@[simp] theorem emit_missDone (e : Emission) (s : State) : (emit e s).missDone = s.missDone := rfl
@[simp] theorem emit_shedding (e : Emission) (s : State) : (emit e s).shedding = s.shedding := rfl
@[simp] theorem emit_numChange (e : Emission) (s : State) : (emit e s).numChange = s.numChange := rfl
@[simp] theorem emit_regs (e : Emission) (s : State) : (emit e s).regs = s.regs := rfl
@[simp] theorem emit_tabs (e : Emission) (s : State) : (emit e s).tabs = s.tabs := rfl
@[simp] theorem emit_cells (e : Emission) (s : State) : (emit e s).cells = s.cells := rfl
@[simp] theorem emit_stWrites (e : Emission) (s : State) : (emit e s).stWrites = s.stWrites := rfl
@[simp] theorem emit_rateCancel (e : Emission) (s : State) : (emit e s).rateCancel = s.rateCancel := rfl
@[simp] theorem emit_commitAt (e : Emission) (s : State) : (emit e s).commitAt = s.commitAt := rfl
@[simp] theorem emit_batches (e : Emission) (s : State) : (emit e s).batches = s.batches := rfl
@[simp] theorem emit_avails (e : Emission) (s : State) : (emit e s).avails = s.avails := rfl
@[simp] theorem emit_clk (e : Emission) (s : State) : (emit e s).clk = s.clk := rfl
@[simp] theorem emit_servo (e : Emission) (s : State) : (emit e s).servo = s.servo := rfl
@[simp] theorem emit_lanes (e : Emission) (s : State) : (emit e s).lanes = s.lanes := rfl
@[simp] theorem emit_fwJob (e : Emission) (s : State) : (emit e s).fwJob = s.fwJob := rfl
@[simp] theorem emit_meas (e : Emission) (s : State) : (emit e s).meas = s.meas := rfl
@[simp] theorem emit_chains (e : Emission) (s : State) : (emit e s).chains = s.chains := rfl
@[simp] theorem emit_slots (e : Emission) (s : State) : (emit e s).slots = s.slots := rfl
@[simp] theorem emit_loopDone (e : Emission) (s : State) : (emit e s).loopDone = s.loopDone := rfl
@[simp] theorem emit_loopSeen (e : Emission) (s : State) : (emit e s).loopSeen = s.loopSeen := rfl
@[simp] theorem emit_mbx (e : Emission) (s : State) : (emit e s).mbx = s.mbx := rfl
@[simp] theorem emit_osc (e : Emission) (s : State) : (emit e s).osc = s.osc := rfl
@[simp] theorem emit_arms (e : Emission) (s : State) : (emit e s).arms = s.arms := rfl
@[simp] theorem emit_run (e : Emission) (s : State) : (emit e s).run = s.run := rfl
@[simp] theorem emit_waitIn (e : Emission) (s : State) : (emit e s).waitIn = s.waitIn := rfl
@[simp] theorem emit_ready (e : Emission) (s : State) : (emit e s).ready = s.ready := rfl
@[simp] theorem emit_prot (e : Emission) (s : State) : (emit e s).prot = s.prot := rfl
@[simp] theorem emit_dpx (e : Emission) (s : State) : (emit e s).dpx = s.dpx := rfl
@[simp] theorem emit_fcl (e : Emission) (s : State) : (emit e s).fcl = s.fcl := rfl
@[simp] theorem emit_bench (e : Emission) (s : State) : (emit e s).bench = s.bench := rfl
@[simp] theorem emit_fmn (e : Emission) (s : State) : (emit e s).fmn = s.fmn := rfl
@[simp] theorem emit_ledger (e : Emission) (s : State) : (emit e s).ledger = s.ledger := rfl
@[simp] theorem emit_ctxs (e : Emission) (s : State) : (emit e s).ctxs = s.ctxs := rfl
@[simp] theorem emit_accepted (e : Emission) (s : State) : (emit e s).accepted = s.accepted := rfl
@[simp] theorem emit_accCount (e : Emission) (s : State) : (emit e s).accCount = s.accCount := rfl
@[simp] theorem emit_net (e : Emission) (s : State) : (emit e s).net = s.net := rfl
@[simp] theorem emit_sec (e : Emission) (s : State) : (emit e s).sec = s.sec := rfl
@[simp] theorem emit_pwr (e : Emission) (s : State) : (emit e s).pwr = s.pwr := rfl
@[simp] theorem emit_pin (e : Emission) (s : State) : (emit e s).pin = s.pin := rfl
@[simp] theorem emit_freeCount (e : Emission) (s : State) : (emit e s).freeCount = s.freeCount := rfl
@[simp] theorem emit_pending (e : Emission) (s : State) : (emit e s).pending = s.pending := rfl

/-! `drawFree` changes `freeCount`. -/

@[simp] theorem drawFree_time (s : State) : (drawFree s).2.time = s.time := rfl
@[simp] theorem drawFree_tick (s : State) : (drawFree s).2.tick = s.tick := rfl
@[simp] theorem drawFree_markAt (s : State) : (drawFree s).2.markAt = s.markAt := rfl
@[simp] theorem drawFree_dev (s : State) : (drawFree s).2.dev = s.dev := rfl
@[simp] theorem drawFree_conv (s : State) : (drawFree s).2.conv = s.conv := rfl
@[simp] theorem drawFree_role (s : State) : (drawFree s).2.role = s.role := rfl
@[simp] theorem drawFree_watch (s : State) : (drawFree s).2.watch = s.watch := rfl
@[simp] theorem drawFree_lanesOn (s : State) : (drawFree s).2.lanesOn = s.lanesOn := rfl
@[simp] theorem drawFree_litAt (s : State) : (drawFree s).2.litAt = s.litAt := rfl
@[simp] theorem drawFree_freeze (s : State) : (drawFree s).2.freeze = s.freeze := rfl
@[simp] theorem drawFree_frozen (s : State) : (drawFree s).2.frozen = s.frozen := rfl
@[simp] theorem drawFree_suppress (s : State) : (drawFree s).2.suppress = s.suppress := rfl
@[simp] theorem drawFree_sentWin (s : State) : (drawFree s).2.sentWin = s.sentWin := rfl
@[simp] theorem drawFree_closeDone (s : State) : (drawFree s).2.closeDone = s.closeDone := rfl
@[simp] theorem drawFree_frameEnd (s : State) : (drawFree s).2.frameEnd = s.frameEnd := rfl
@[simp] theorem drawFree_misses (s : State) : (drawFree s).2.misses = s.misses := rfl
@[simp] theorem drawFree_missDone (s : State) : (drawFree s).2.missDone = s.missDone := rfl
@[simp] theorem drawFree_shedding (s : State) : (drawFree s).2.shedding = s.shedding := rfl
@[simp] theorem drawFree_numChange (s : State) : (drawFree s).2.numChange = s.numChange := rfl
@[simp] theorem drawFree_regs (s : State) : (drawFree s).2.regs = s.regs := rfl
@[simp] theorem drawFree_tabs (s : State) : (drawFree s).2.tabs = s.tabs := rfl
@[simp] theorem drawFree_cells (s : State) : (drawFree s).2.cells = s.cells := rfl
@[simp] theorem drawFree_stWrites (s : State) : (drawFree s).2.stWrites = s.stWrites := rfl
@[simp] theorem drawFree_rateCancel (s : State) : (drawFree s).2.rateCancel = s.rateCancel := rfl
@[simp] theorem drawFree_commitAt (s : State) : (drawFree s).2.commitAt = s.commitAt := rfl
@[simp] theorem drawFree_batches (s : State) : (drawFree s).2.batches = s.batches := rfl
@[simp] theorem drawFree_avails (s : State) : (drawFree s).2.avails = s.avails := rfl
@[simp] theorem drawFree_clk (s : State) : (drawFree s).2.clk = s.clk := rfl
@[simp] theorem drawFree_servo (s : State) : (drawFree s).2.servo = s.servo := rfl
@[simp] theorem drawFree_lanes (s : State) : (drawFree s).2.lanes = s.lanes := rfl
@[simp] theorem drawFree_fwJob (s : State) : (drawFree s).2.fwJob = s.fwJob := rfl
@[simp] theorem drawFree_meas (s : State) : (drawFree s).2.meas = s.meas := rfl
@[simp] theorem drawFree_chains (s : State) : (drawFree s).2.chains = s.chains := rfl
@[simp] theorem drawFree_slots (s : State) : (drawFree s).2.slots = s.slots := rfl
@[simp] theorem drawFree_loopDone (s : State) : (drawFree s).2.loopDone = s.loopDone := rfl
@[simp] theorem drawFree_loopSeen (s : State) : (drawFree s).2.loopSeen = s.loopSeen := rfl
@[simp] theorem drawFree_mbx (s : State) : (drawFree s).2.mbx = s.mbx := rfl
@[simp] theorem drawFree_osc (s : State) : (drawFree s).2.osc = s.osc := rfl
@[simp] theorem drawFree_arms (s : State) : (drawFree s).2.arms = s.arms := rfl
@[simp] theorem drawFree_run (s : State) : (drawFree s).2.run = s.run := rfl
@[simp] theorem drawFree_waitIn (s : State) : (drawFree s).2.waitIn = s.waitIn := rfl
@[simp] theorem drawFree_ready (s : State) : (drawFree s).2.ready = s.ready := rfl
@[simp] theorem drawFree_prot (s : State) : (drawFree s).2.prot = s.prot := rfl
@[simp] theorem drawFree_dpx (s : State) : (drawFree s).2.dpx = s.dpx := rfl
@[simp] theorem drawFree_fcl (s : State) : (drawFree s).2.fcl = s.fcl := rfl
@[simp] theorem drawFree_bench (s : State) : (drawFree s).2.bench = s.bench := rfl
@[simp] theorem drawFree_fmn (s : State) : (drawFree s).2.fmn = s.fmn := rfl
@[simp] theorem drawFree_ledger (s : State) : (drawFree s).2.ledger = s.ledger := rfl
@[simp] theorem drawFree_ctxs (s : State) : (drawFree s).2.ctxs = s.ctxs := rfl
@[simp] theorem drawFree_accepted (s : State) : (drawFree s).2.accepted = s.accepted := rfl
@[simp] theorem drawFree_accCount (s : State) : (drawFree s).2.accCount = s.accCount := rfl
@[simp] theorem drawFree_net (s : State) : (drawFree s).2.net = s.net := rfl
@[simp] theorem drawFree_sec (s : State) : (drawFree s).2.sec = s.sec := rfl
@[simp] theorem drawFree_pwr (s : State) : (drawFree s).2.pwr = s.pwr := rfl
@[simp] theorem drawFree_pin (s : State) : (drawFree s).2.pin = s.pin := rfl
@[simp] theorem drawFree_sent (s : State) : (drawFree s).2.sent = s.sent := rfl
@[simp] theorem drawFree_pending (s : State) : (drawFree s).2.pending = s.pending := rfl

/-! `holdWrite` changes `pwr`. -/

@[simp] theorem holdWrite_time (a : Nat) (v : Word) (s : State) : (holdWrite a v s).time = s.time := rfl
@[simp] theorem holdWrite_tick (a : Nat) (v : Word) (s : State) : (holdWrite a v s).tick = s.tick := rfl
@[simp] theorem holdWrite_markAt (a : Nat) (v : Word) (s : State) : (holdWrite a v s).markAt = s.markAt := rfl
@[simp] theorem holdWrite_dev (a : Nat) (v : Word) (s : State) : (holdWrite a v s).dev = s.dev := rfl
@[simp] theorem holdWrite_conv (a : Nat) (v : Word) (s : State) : (holdWrite a v s).conv = s.conv := rfl
@[simp] theorem holdWrite_role (a : Nat) (v : Word) (s : State) : (holdWrite a v s).role = s.role := rfl
@[simp] theorem holdWrite_watch (a : Nat) (v : Word) (s : State) : (holdWrite a v s).watch = s.watch := rfl
@[simp] theorem holdWrite_lanesOn (a : Nat) (v : Word) (s : State) : (holdWrite a v s).lanesOn = s.lanesOn := rfl
@[simp] theorem holdWrite_litAt (a : Nat) (v : Word) (s : State) : (holdWrite a v s).litAt = s.litAt := rfl
@[simp] theorem holdWrite_freeze (a : Nat) (v : Word) (s : State) : (holdWrite a v s).freeze = s.freeze := rfl
@[simp] theorem holdWrite_frozen (a : Nat) (v : Word) (s : State) : (holdWrite a v s).frozen = s.frozen := rfl
@[simp] theorem holdWrite_suppress (a : Nat) (v : Word) (s : State) : (holdWrite a v s).suppress = s.suppress := rfl
@[simp] theorem holdWrite_sentWin (a : Nat) (v : Word) (s : State) : (holdWrite a v s).sentWin = s.sentWin := rfl
@[simp] theorem holdWrite_closeDone (a : Nat) (v : Word) (s : State) : (holdWrite a v s).closeDone = s.closeDone := rfl
@[simp] theorem holdWrite_frameEnd (a : Nat) (v : Word) (s : State) : (holdWrite a v s).frameEnd = s.frameEnd := rfl
@[simp] theorem holdWrite_misses (a : Nat) (v : Word) (s : State) : (holdWrite a v s).misses = s.misses := rfl
@[simp] theorem holdWrite_missDone (a : Nat) (v : Word) (s : State) : (holdWrite a v s).missDone = s.missDone := rfl
@[simp] theorem holdWrite_shedding (a : Nat) (v : Word) (s : State) : (holdWrite a v s).shedding = s.shedding := rfl
@[simp] theorem holdWrite_numChange (a : Nat) (v : Word) (s : State) : (holdWrite a v s).numChange = s.numChange := rfl
@[simp] theorem holdWrite_regs (a : Nat) (v : Word) (s : State) : (holdWrite a v s).regs = s.regs := rfl
@[simp] theorem holdWrite_tabs (a : Nat) (v : Word) (s : State) : (holdWrite a v s).tabs = s.tabs := rfl
@[simp] theorem holdWrite_cells (a : Nat) (v : Word) (s : State) : (holdWrite a v s).cells = s.cells := rfl
@[simp] theorem holdWrite_stWrites (a : Nat) (v : Word) (s : State) : (holdWrite a v s).stWrites = s.stWrites := rfl
@[simp] theorem holdWrite_rateCancel (a : Nat) (v : Word) (s : State) : (holdWrite a v s).rateCancel = s.rateCancel := rfl
@[simp] theorem holdWrite_commitAt (a : Nat) (v : Word) (s : State) : (holdWrite a v s).commitAt = s.commitAt := rfl
@[simp] theorem holdWrite_batches (a : Nat) (v : Word) (s : State) : (holdWrite a v s).batches = s.batches := rfl
@[simp] theorem holdWrite_avails (a : Nat) (v : Word) (s : State) : (holdWrite a v s).avails = s.avails := rfl
@[simp] theorem holdWrite_clk (a : Nat) (v : Word) (s : State) : (holdWrite a v s).clk = s.clk := rfl
@[simp] theorem holdWrite_servo (a : Nat) (v : Word) (s : State) : (holdWrite a v s).servo = s.servo := rfl
@[simp] theorem holdWrite_lanes (a : Nat) (v : Word) (s : State) : (holdWrite a v s).lanes = s.lanes := rfl
@[simp] theorem holdWrite_fwJob (a : Nat) (v : Word) (s : State) : (holdWrite a v s).fwJob = s.fwJob := rfl
@[simp] theorem holdWrite_meas (a : Nat) (v : Word) (s : State) : (holdWrite a v s).meas = s.meas := rfl
@[simp] theorem holdWrite_chains (a : Nat) (v : Word) (s : State) : (holdWrite a v s).chains = s.chains := rfl
@[simp] theorem holdWrite_slots (a : Nat) (v : Word) (s : State) : (holdWrite a v s).slots = s.slots := rfl
@[simp] theorem holdWrite_loopDone (a : Nat) (v : Word) (s : State) : (holdWrite a v s).loopDone = s.loopDone := rfl
@[simp] theorem holdWrite_loopSeen (a : Nat) (v : Word) (s : State) : (holdWrite a v s).loopSeen = s.loopSeen := rfl
@[simp] theorem holdWrite_mbx (a : Nat) (v : Word) (s : State) : (holdWrite a v s).mbx = s.mbx := rfl
@[simp] theorem holdWrite_osc (a : Nat) (v : Word) (s : State) : (holdWrite a v s).osc = s.osc := rfl
@[simp] theorem holdWrite_arms (a : Nat) (v : Word) (s : State) : (holdWrite a v s).arms = s.arms := rfl
@[simp] theorem holdWrite_run (a : Nat) (v : Word) (s : State) : (holdWrite a v s).run = s.run := rfl
@[simp] theorem holdWrite_waitIn (a : Nat) (v : Word) (s : State) : (holdWrite a v s).waitIn = s.waitIn := rfl
@[simp] theorem holdWrite_ready (a : Nat) (v : Word) (s : State) : (holdWrite a v s).ready = s.ready := rfl
@[simp] theorem holdWrite_prot (a : Nat) (v : Word) (s : State) : (holdWrite a v s).prot = s.prot := rfl
@[simp] theorem holdWrite_dpx (a : Nat) (v : Word) (s : State) : (holdWrite a v s).dpx = s.dpx := rfl
@[simp] theorem holdWrite_fcl (a : Nat) (v : Word) (s : State) : (holdWrite a v s).fcl = s.fcl := rfl
@[simp] theorem holdWrite_bench (a : Nat) (v : Word) (s : State) : (holdWrite a v s).bench = s.bench := rfl
@[simp] theorem holdWrite_fmn (a : Nat) (v : Word) (s : State) : (holdWrite a v s).fmn = s.fmn := rfl
@[simp] theorem holdWrite_ledger (a : Nat) (v : Word) (s : State) : (holdWrite a v s).ledger = s.ledger := rfl
@[simp] theorem holdWrite_ctxs (a : Nat) (v : Word) (s : State) : (holdWrite a v s).ctxs = s.ctxs := rfl
@[simp] theorem holdWrite_accepted (a : Nat) (v : Word) (s : State) : (holdWrite a v s).accepted = s.accepted := rfl
@[simp] theorem holdWrite_accCount (a : Nat) (v : Word) (s : State) : (holdWrite a v s).accCount = s.accCount := rfl
@[simp] theorem holdWrite_net (a : Nat) (v : Word) (s : State) : (holdWrite a v s).net = s.net := rfl
@[simp] theorem holdWrite_sec (a : Nat) (v : Word) (s : State) : (holdWrite a v s).sec = s.sec := rfl
@[simp] theorem holdWrite_pin (a : Nat) (v : Word) (s : State) : (holdWrite a v s).pin = s.pin := rfl
@[simp] theorem holdWrite_sent (a : Nat) (v : Word) (s : State) : (holdWrite a v s).sent = s.sent := rfl
@[simp] theorem holdWrite_freeCount (a : Nat) (v : Word) (s : State) : (holdWrite a v s).freeCount = s.freeCount := rfl
@[simp] theorem holdWrite_pending (a : Nat) (v : Word) (s : State) : (holdWrite a v s).pending = s.pending := rfl

/-! `modTask` changes `bench`. -/

@[simp] theorem modTask_time (t : Nat) (f : TaskSt → TaskSt) (s : State) : (modTask t f s).time = s.time := rfl
@[simp] theorem modTask_tick (t : Nat) (f : TaskSt → TaskSt) (s : State) : (modTask t f s).tick = s.tick := rfl
@[simp] theorem modTask_markAt (t : Nat) (f : TaskSt → TaskSt) (s : State) : (modTask t f s).markAt = s.markAt := rfl
@[simp] theorem modTask_dev (t : Nat) (f : TaskSt → TaskSt) (s : State) : (modTask t f s).dev = s.dev := rfl
@[simp] theorem modTask_conv (t : Nat) (f : TaskSt → TaskSt) (s : State) : (modTask t f s).conv = s.conv := rfl
@[simp] theorem modTask_role (t : Nat) (f : TaskSt → TaskSt) (s : State) : (modTask t f s).role = s.role := rfl
@[simp] theorem modTask_watch (t : Nat) (f : TaskSt → TaskSt) (s : State) : (modTask t f s).watch = s.watch := rfl
@[simp] theorem modTask_lanesOn (t : Nat) (f : TaskSt → TaskSt) (s : State) : (modTask t f s).lanesOn = s.lanesOn := rfl
@[simp] theorem modTask_litAt (t : Nat) (f : TaskSt → TaskSt) (s : State) : (modTask t f s).litAt = s.litAt := rfl
@[simp] theorem modTask_freeze (t : Nat) (f : TaskSt → TaskSt) (s : State) : (modTask t f s).freeze = s.freeze := rfl
@[simp] theorem modTask_frozen (t : Nat) (f : TaskSt → TaskSt) (s : State) : (modTask t f s).frozen = s.frozen := rfl
@[simp] theorem modTask_suppress (t : Nat) (f : TaskSt → TaskSt) (s : State) : (modTask t f s).suppress = s.suppress := rfl
@[simp] theorem modTask_sentWin (t : Nat) (f : TaskSt → TaskSt) (s : State) : (modTask t f s).sentWin = s.sentWin := rfl
@[simp] theorem modTask_closeDone (t : Nat) (f : TaskSt → TaskSt) (s : State) : (modTask t f s).closeDone = s.closeDone := rfl
@[simp] theorem modTask_frameEnd (t : Nat) (f : TaskSt → TaskSt) (s : State) : (modTask t f s).frameEnd = s.frameEnd := rfl
@[simp] theorem modTask_misses (t : Nat) (f : TaskSt → TaskSt) (s : State) : (modTask t f s).misses = s.misses := rfl
@[simp] theorem modTask_missDone (t : Nat) (f : TaskSt → TaskSt) (s : State) : (modTask t f s).missDone = s.missDone := rfl
@[simp] theorem modTask_shedding (t : Nat) (f : TaskSt → TaskSt) (s : State) : (modTask t f s).shedding = s.shedding := rfl
@[simp] theorem modTask_numChange (t : Nat) (f : TaskSt → TaskSt) (s : State) : (modTask t f s).numChange = s.numChange := rfl
@[simp] theorem modTask_regs (t : Nat) (f : TaskSt → TaskSt) (s : State) : (modTask t f s).regs = s.regs := rfl
@[simp] theorem modTask_tabs (t : Nat) (f : TaskSt → TaskSt) (s : State) : (modTask t f s).tabs = s.tabs := rfl
@[simp] theorem modTask_cells (t : Nat) (f : TaskSt → TaskSt) (s : State) : (modTask t f s).cells = s.cells := rfl
@[simp] theorem modTask_stWrites (t : Nat) (f : TaskSt → TaskSt) (s : State) : (modTask t f s).stWrites = s.stWrites := rfl
@[simp] theorem modTask_rateCancel (t : Nat) (f : TaskSt → TaskSt) (s : State) : (modTask t f s).rateCancel = s.rateCancel := rfl
@[simp] theorem modTask_commitAt (t : Nat) (f : TaskSt → TaskSt) (s : State) : (modTask t f s).commitAt = s.commitAt := rfl
@[simp] theorem modTask_batches (t : Nat) (f : TaskSt → TaskSt) (s : State) : (modTask t f s).batches = s.batches := rfl
@[simp] theorem modTask_avails (t : Nat) (f : TaskSt → TaskSt) (s : State) : (modTask t f s).avails = s.avails := rfl
@[simp] theorem modTask_clk (t : Nat) (f : TaskSt → TaskSt) (s : State) : (modTask t f s).clk = s.clk := rfl
@[simp] theorem modTask_servo (t : Nat) (f : TaskSt → TaskSt) (s : State) : (modTask t f s).servo = s.servo := rfl
@[simp] theorem modTask_lanes (t : Nat) (f : TaskSt → TaskSt) (s : State) : (modTask t f s).lanes = s.lanes := rfl
@[simp] theorem modTask_fwJob (t : Nat) (f : TaskSt → TaskSt) (s : State) : (modTask t f s).fwJob = s.fwJob := rfl
@[simp] theorem modTask_meas (t : Nat) (f : TaskSt → TaskSt) (s : State) : (modTask t f s).meas = s.meas := rfl
@[simp] theorem modTask_chains (t : Nat) (f : TaskSt → TaskSt) (s : State) : (modTask t f s).chains = s.chains := rfl
@[simp] theorem modTask_slots (t : Nat) (f : TaskSt → TaskSt) (s : State) : (modTask t f s).slots = s.slots := rfl
@[simp] theorem modTask_loopDone (t : Nat) (f : TaskSt → TaskSt) (s : State) : (modTask t f s).loopDone = s.loopDone := rfl
@[simp] theorem modTask_loopSeen (t : Nat) (f : TaskSt → TaskSt) (s : State) : (modTask t f s).loopSeen = s.loopSeen := rfl
@[simp] theorem modTask_mbx (t : Nat) (f : TaskSt → TaskSt) (s : State) : (modTask t f s).mbx = s.mbx := rfl
@[simp] theorem modTask_osc (t : Nat) (f : TaskSt → TaskSt) (s : State) : (modTask t f s).osc = s.osc := rfl
@[simp] theorem modTask_arms (t : Nat) (f : TaskSt → TaskSt) (s : State) : (modTask t f s).arms = s.arms := rfl
@[simp] theorem modTask_run (t : Nat) (f : TaskSt → TaskSt) (s : State) : (modTask t f s).run = s.run := rfl
@[simp] theorem modTask_waitIn (t : Nat) (f : TaskSt → TaskSt) (s : State) : (modTask t f s).waitIn = s.waitIn := rfl
@[simp] theorem modTask_ready (t : Nat) (f : TaskSt → TaskSt) (s : State) : (modTask t f s).ready = s.ready := rfl
@[simp] theorem modTask_prot (t : Nat) (f : TaskSt → TaskSt) (s : State) : (modTask t f s).prot = s.prot := rfl
@[simp] theorem modTask_dpx (t : Nat) (f : TaskSt → TaskSt) (s : State) : (modTask t f s).dpx = s.dpx := rfl
@[simp] theorem modTask_fcl (t : Nat) (f : TaskSt → TaskSt) (s : State) : (modTask t f s).fcl = s.fcl := rfl
@[simp] theorem modTask_fmn (t : Nat) (f : TaskSt → TaskSt) (s : State) : (modTask t f s).fmn = s.fmn := rfl
@[simp] theorem modTask_ledger (t : Nat) (f : TaskSt → TaskSt) (s : State) : (modTask t f s).ledger = s.ledger := rfl
@[simp] theorem modTask_ctxs (t : Nat) (f : TaskSt → TaskSt) (s : State) : (modTask t f s).ctxs = s.ctxs := rfl
@[simp] theorem modTask_accepted (t : Nat) (f : TaskSt → TaskSt) (s : State) : (modTask t f s).accepted = s.accepted := rfl
@[simp] theorem modTask_accCount (t : Nat) (f : TaskSt → TaskSt) (s : State) : (modTask t f s).accCount = s.accCount := rfl
@[simp] theorem modTask_net (t : Nat) (f : TaskSt → TaskSt) (s : State) : (modTask t f s).net = s.net := rfl
@[simp] theorem modTask_sec (t : Nat) (f : TaskSt → TaskSt) (s : State) : (modTask t f s).sec = s.sec := rfl
@[simp] theorem modTask_pwr (t : Nat) (f : TaskSt → TaskSt) (s : State) : (modTask t f s).pwr = s.pwr := rfl
@[simp] theorem modTask_pin (t : Nat) (f : TaskSt → TaskSt) (s : State) : (modTask t f s).pin = s.pin := rfl
@[simp] theorem modTask_sent (t : Nat) (f : TaskSt → TaskSt) (s : State) : (modTask t f s).sent = s.sent := rfl
@[simp] theorem modTask_freeCount (t : Nat) (f : TaskSt → TaskSt) (s : State) : (modTask t f s).freeCount = s.freeCount := rfl
@[simp] theorem modTask_pending (t : Nat) (f : TaskSt → TaskSt) (s : State) : (modTask t f s).pending = s.pending := rfl

/-! `modCtx` changes `fmn`. -/

@[simp] theorem modCtx_time (c : Nat) (f : FmnCtx → FmnCtx) (s : State) : (modCtx c f s).time = s.time := rfl
@[simp] theorem modCtx_tick (c : Nat) (f : FmnCtx → FmnCtx) (s : State) : (modCtx c f s).tick = s.tick := rfl
@[simp] theorem modCtx_markAt (c : Nat) (f : FmnCtx → FmnCtx) (s : State) : (modCtx c f s).markAt = s.markAt := rfl
@[simp] theorem modCtx_dev (c : Nat) (f : FmnCtx → FmnCtx) (s : State) : (modCtx c f s).dev = s.dev := rfl
@[simp] theorem modCtx_conv (c : Nat) (f : FmnCtx → FmnCtx) (s : State) : (modCtx c f s).conv = s.conv := rfl
@[simp] theorem modCtx_role (c : Nat) (f : FmnCtx → FmnCtx) (s : State) : (modCtx c f s).role = s.role := rfl
@[simp] theorem modCtx_watch (c : Nat) (f : FmnCtx → FmnCtx) (s : State) : (modCtx c f s).watch = s.watch := rfl
@[simp] theorem modCtx_lanesOn (c : Nat) (f : FmnCtx → FmnCtx) (s : State) : (modCtx c f s).lanesOn = s.lanesOn := rfl
@[simp] theorem modCtx_litAt (c : Nat) (f : FmnCtx → FmnCtx) (s : State) : (modCtx c f s).litAt = s.litAt := rfl
@[simp] theorem modCtx_freeze (c : Nat) (f : FmnCtx → FmnCtx) (s : State) : (modCtx c f s).freeze = s.freeze := rfl
@[simp] theorem modCtx_frozen (c : Nat) (f : FmnCtx → FmnCtx) (s : State) : (modCtx c f s).frozen = s.frozen := rfl
@[simp] theorem modCtx_suppress (c : Nat) (f : FmnCtx → FmnCtx) (s : State) : (modCtx c f s).suppress = s.suppress := rfl
@[simp] theorem modCtx_sentWin (c : Nat) (f : FmnCtx → FmnCtx) (s : State) : (modCtx c f s).sentWin = s.sentWin := rfl
@[simp] theorem modCtx_closeDone (c : Nat) (f : FmnCtx → FmnCtx) (s : State) : (modCtx c f s).closeDone = s.closeDone := rfl
@[simp] theorem modCtx_frameEnd (c : Nat) (f : FmnCtx → FmnCtx) (s : State) : (modCtx c f s).frameEnd = s.frameEnd := rfl
@[simp] theorem modCtx_misses (c : Nat) (f : FmnCtx → FmnCtx) (s : State) : (modCtx c f s).misses = s.misses := rfl
@[simp] theorem modCtx_missDone (c : Nat) (f : FmnCtx → FmnCtx) (s : State) : (modCtx c f s).missDone = s.missDone := rfl
@[simp] theorem modCtx_shedding (c : Nat) (f : FmnCtx → FmnCtx) (s : State) : (modCtx c f s).shedding = s.shedding := rfl
@[simp] theorem modCtx_numChange (c : Nat) (f : FmnCtx → FmnCtx) (s : State) : (modCtx c f s).numChange = s.numChange := rfl
@[simp] theorem modCtx_regs (c : Nat) (f : FmnCtx → FmnCtx) (s : State) : (modCtx c f s).regs = s.regs := rfl
@[simp] theorem modCtx_tabs (c : Nat) (f : FmnCtx → FmnCtx) (s : State) : (modCtx c f s).tabs = s.tabs := rfl
@[simp] theorem modCtx_cells (c : Nat) (f : FmnCtx → FmnCtx) (s : State) : (modCtx c f s).cells = s.cells := rfl
@[simp] theorem modCtx_stWrites (c : Nat) (f : FmnCtx → FmnCtx) (s : State) : (modCtx c f s).stWrites = s.stWrites := rfl
@[simp] theorem modCtx_rateCancel (c : Nat) (f : FmnCtx → FmnCtx) (s : State) : (modCtx c f s).rateCancel = s.rateCancel := rfl
@[simp] theorem modCtx_commitAt (c : Nat) (f : FmnCtx → FmnCtx) (s : State) : (modCtx c f s).commitAt = s.commitAt := rfl
@[simp] theorem modCtx_batches (c : Nat) (f : FmnCtx → FmnCtx) (s : State) : (modCtx c f s).batches = s.batches := rfl
@[simp] theorem modCtx_avails (c : Nat) (f : FmnCtx → FmnCtx) (s : State) : (modCtx c f s).avails = s.avails := rfl
@[simp] theorem modCtx_clk (c : Nat) (f : FmnCtx → FmnCtx) (s : State) : (modCtx c f s).clk = s.clk := rfl
@[simp] theorem modCtx_servo (c : Nat) (f : FmnCtx → FmnCtx) (s : State) : (modCtx c f s).servo = s.servo := rfl
@[simp] theorem modCtx_lanes (c : Nat) (f : FmnCtx → FmnCtx) (s : State) : (modCtx c f s).lanes = s.lanes := rfl
@[simp] theorem modCtx_fwJob (c : Nat) (f : FmnCtx → FmnCtx) (s : State) : (modCtx c f s).fwJob = s.fwJob := rfl
@[simp] theorem modCtx_meas (c : Nat) (f : FmnCtx → FmnCtx) (s : State) : (modCtx c f s).meas = s.meas := rfl
@[simp] theorem modCtx_chains (c : Nat) (f : FmnCtx → FmnCtx) (s : State) : (modCtx c f s).chains = s.chains := rfl
@[simp] theorem modCtx_slots (c : Nat) (f : FmnCtx → FmnCtx) (s : State) : (modCtx c f s).slots = s.slots := rfl
@[simp] theorem modCtx_loopDone (c : Nat) (f : FmnCtx → FmnCtx) (s : State) : (modCtx c f s).loopDone = s.loopDone := rfl
@[simp] theorem modCtx_loopSeen (c : Nat) (f : FmnCtx → FmnCtx) (s : State) : (modCtx c f s).loopSeen = s.loopSeen := rfl
@[simp] theorem modCtx_mbx (c : Nat) (f : FmnCtx → FmnCtx) (s : State) : (modCtx c f s).mbx = s.mbx := rfl
@[simp] theorem modCtx_osc (c : Nat) (f : FmnCtx → FmnCtx) (s : State) : (modCtx c f s).osc = s.osc := rfl
@[simp] theorem modCtx_arms (c : Nat) (f : FmnCtx → FmnCtx) (s : State) : (modCtx c f s).arms = s.arms := rfl
@[simp] theorem modCtx_run (c : Nat) (f : FmnCtx → FmnCtx) (s : State) : (modCtx c f s).run = s.run := rfl
@[simp] theorem modCtx_waitIn (c : Nat) (f : FmnCtx → FmnCtx) (s : State) : (modCtx c f s).waitIn = s.waitIn := rfl
@[simp] theorem modCtx_ready (c : Nat) (f : FmnCtx → FmnCtx) (s : State) : (modCtx c f s).ready = s.ready := rfl
@[simp] theorem modCtx_prot (c : Nat) (f : FmnCtx → FmnCtx) (s : State) : (modCtx c f s).prot = s.prot := rfl
@[simp] theorem modCtx_dpx (c : Nat) (f : FmnCtx → FmnCtx) (s : State) : (modCtx c f s).dpx = s.dpx := rfl
@[simp] theorem modCtx_fcl (c : Nat) (f : FmnCtx → FmnCtx) (s : State) : (modCtx c f s).fcl = s.fcl := rfl
@[simp] theorem modCtx_bench (c : Nat) (f : FmnCtx → FmnCtx) (s : State) : (modCtx c f s).bench = s.bench := rfl
@[simp] theorem modCtx_ledger (c : Nat) (f : FmnCtx → FmnCtx) (s : State) : (modCtx c f s).ledger = s.ledger := rfl
@[simp] theorem modCtx_ctxs (c : Nat) (f : FmnCtx → FmnCtx) (s : State) : (modCtx c f s).ctxs = s.ctxs := rfl
@[simp] theorem modCtx_accepted (c : Nat) (f : FmnCtx → FmnCtx) (s : State) : (modCtx c f s).accepted = s.accepted := rfl
@[simp] theorem modCtx_accCount (c : Nat) (f : FmnCtx → FmnCtx) (s : State) : (modCtx c f s).accCount = s.accCount := rfl
@[simp] theorem modCtx_net (c : Nat) (f : FmnCtx → FmnCtx) (s : State) : (modCtx c f s).net = s.net := rfl
@[simp] theorem modCtx_sec (c : Nat) (f : FmnCtx → FmnCtx) (s : State) : (modCtx c f s).sec = s.sec := rfl
@[simp] theorem modCtx_pwr (c : Nat) (f : FmnCtx → FmnCtx) (s : State) : (modCtx c f s).pwr = s.pwr := rfl
@[simp] theorem modCtx_pin (c : Nat) (f : FmnCtx → FmnCtx) (s : State) : (modCtx c f s).pin = s.pin := rfl
@[simp] theorem modCtx_sent (c : Nat) (f : FmnCtx → FmnCtx) (s : State) : (modCtx c f s).sent = s.sent := rfl
@[simp] theorem modCtx_freeCount (c : Nat) (f : FmnCtx → FmnCtx) (s : State) : (modCtx c f s).freeCount = s.freeCount := rfl
@[simp] theorem modCtx_pending (c : Nat) (f : FmnCtx → FmnCtx) (s : State) : (modCtx c f s).pending = s.pending := rfl

/-! `setExec` changes `fmn`. -/

@[simp] theorem setExec_time (e : Nat) (c : Option Nat) (s : State) : (setExec e c s).time = s.time := rfl
@[simp] theorem setExec_tick (e : Nat) (c : Option Nat) (s : State) : (setExec e c s).tick = s.tick := rfl
@[simp] theorem setExec_markAt (e : Nat) (c : Option Nat) (s : State) : (setExec e c s).markAt = s.markAt := rfl
@[simp] theorem setExec_dev (e : Nat) (c : Option Nat) (s : State) : (setExec e c s).dev = s.dev := rfl
@[simp] theorem setExec_conv (e : Nat) (c : Option Nat) (s : State) : (setExec e c s).conv = s.conv := rfl
@[simp] theorem setExec_role (e : Nat) (c : Option Nat) (s : State) : (setExec e c s).role = s.role := rfl
@[simp] theorem setExec_watch (e : Nat) (c : Option Nat) (s : State) : (setExec e c s).watch = s.watch := rfl
@[simp] theorem setExec_lanesOn (e : Nat) (c : Option Nat) (s : State) : (setExec e c s).lanesOn = s.lanesOn := rfl
@[simp] theorem setExec_litAt (e : Nat) (c : Option Nat) (s : State) : (setExec e c s).litAt = s.litAt := rfl
@[simp] theorem setExec_freeze (e : Nat) (c : Option Nat) (s : State) : (setExec e c s).freeze = s.freeze := rfl
@[simp] theorem setExec_frozen (e : Nat) (c : Option Nat) (s : State) : (setExec e c s).frozen = s.frozen := rfl
@[simp] theorem setExec_suppress (e : Nat) (c : Option Nat) (s : State) : (setExec e c s).suppress = s.suppress := rfl
@[simp] theorem setExec_sentWin (e : Nat) (c : Option Nat) (s : State) : (setExec e c s).sentWin = s.sentWin := rfl
@[simp] theorem setExec_closeDone (e : Nat) (c : Option Nat) (s : State) : (setExec e c s).closeDone = s.closeDone := rfl
@[simp] theorem setExec_frameEnd (e : Nat) (c : Option Nat) (s : State) : (setExec e c s).frameEnd = s.frameEnd := rfl
@[simp] theorem setExec_misses (e : Nat) (c : Option Nat) (s : State) : (setExec e c s).misses = s.misses := rfl
@[simp] theorem setExec_missDone (e : Nat) (c : Option Nat) (s : State) : (setExec e c s).missDone = s.missDone := rfl
@[simp] theorem setExec_shedding (e : Nat) (c : Option Nat) (s : State) : (setExec e c s).shedding = s.shedding := rfl
@[simp] theorem setExec_numChange (e : Nat) (c : Option Nat) (s : State) : (setExec e c s).numChange = s.numChange := rfl
@[simp] theorem setExec_regs (e : Nat) (c : Option Nat) (s : State) : (setExec e c s).regs = s.regs := rfl
@[simp] theorem setExec_tabs (e : Nat) (c : Option Nat) (s : State) : (setExec e c s).tabs = s.tabs := rfl
@[simp] theorem setExec_cells (e : Nat) (c : Option Nat) (s : State) : (setExec e c s).cells = s.cells := rfl
@[simp] theorem setExec_stWrites (e : Nat) (c : Option Nat) (s : State) : (setExec e c s).stWrites = s.stWrites := rfl
@[simp] theorem setExec_rateCancel (e : Nat) (c : Option Nat) (s : State) : (setExec e c s).rateCancel = s.rateCancel := rfl
@[simp] theorem setExec_commitAt (e : Nat) (c : Option Nat) (s : State) : (setExec e c s).commitAt = s.commitAt := rfl
@[simp] theorem setExec_batches (e : Nat) (c : Option Nat) (s : State) : (setExec e c s).batches = s.batches := rfl
@[simp] theorem setExec_avails (e : Nat) (c : Option Nat) (s : State) : (setExec e c s).avails = s.avails := rfl
@[simp] theorem setExec_clk (e : Nat) (c : Option Nat) (s : State) : (setExec e c s).clk = s.clk := rfl
@[simp] theorem setExec_servo (e : Nat) (c : Option Nat) (s : State) : (setExec e c s).servo = s.servo := rfl
@[simp] theorem setExec_lanes (e : Nat) (c : Option Nat) (s : State) : (setExec e c s).lanes = s.lanes := rfl
@[simp] theorem setExec_fwJob (e : Nat) (c : Option Nat) (s : State) : (setExec e c s).fwJob = s.fwJob := rfl
@[simp] theorem setExec_meas (e : Nat) (c : Option Nat) (s : State) : (setExec e c s).meas = s.meas := rfl
@[simp] theorem setExec_chains (e : Nat) (c : Option Nat) (s : State) : (setExec e c s).chains = s.chains := rfl
@[simp] theorem setExec_slots (e : Nat) (c : Option Nat) (s : State) : (setExec e c s).slots = s.slots := rfl
@[simp] theorem setExec_loopDone (e : Nat) (c : Option Nat) (s : State) : (setExec e c s).loopDone = s.loopDone := rfl
@[simp] theorem setExec_loopSeen (e : Nat) (c : Option Nat) (s : State) : (setExec e c s).loopSeen = s.loopSeen := rfl
@[simp] theorem setExec_mbx (e : Nat) (c : Option Nat) (s : State) : (setExec e c s).mbx = s.mbx := rfl
@[simp] theorem setExec_osc (e : Nat) (c : Option Nat) (s : State) : (setExec e c s).osc = s.osc := rfl
@[simp] theorem setExec_arms (e : Nat) (c : Option Nat) (s : State) : (setExec e c s).arms = s.arms := rfl
@[simp] theorem setExec_run (e : Nat) (c : Option Nat) (s : State) : (setExec e c s).run = s.run := rfl
@[simp] theorem setExec_waitIn (e : Nat) (c : Option Nat) (s : State) : (setExec e c s).waitIn = s.waitIn := rfl
@[simp] theorem setExec_ready (e : Nat) (c : Option Nat) (s : State) : (setExec e c s).ready = s.ready := rfl
@[simp] theorem setExec_prot (e : Nat) (c : Option Nat) (s : State) : (setExec e c s).prot = s.prot := rfl
@[simp] theorem setExec_dpx (e : Nat) (c : Option Nat) (s : State) : (setExec e c s).dpx = s.dpx := rfl
@[simp] theorem setExec_fcl (e : Nat) (c : Option Nat) (s : State) : (setExec e c s).fcl = s.fcl := rfl
@[simp] theorem setExec_bench (e : Nat) (c : Option Nat) (s : State) : (setExec e c s).bench = s.bench := rfl
@[simp] theorem setExec_ledger (e : Nat) (c : Option Nat) (s : State) : (setExec e c s).ledger = s.ledger := rfl
@[simp] theorem setExec_ctxs (e : Nat) (c : Option Nat) (s : State) : (setExec e c s).ctxs = s.ctxs := rfl
@[simp] theorem setExec_accepted (e : Nat) (c : Option Nat) (s : State) : (setExec e c s).accepted = s.accepted := rfl
@[simp] theorem setExec_accCount (e : Nat) (c : Option Nat) (s : State) : (setExec e c s).accCount = s.accCount := rfl
@[simp] theorem setExec_net (e : Nat) (c : Option Nat) (s : State) : (setExec e c s).net = s.net := rfl
@[simp] theorem setExec_sec (e : Nat) (c : Option Nat) (s : State) : (setExec e c s).sec = s.sec := rfl
@[simp] theorem setExec_pwr (e : Nat) (c : Option Nat) (s : State) : (setExec e c s).pwr = s.pwr := rfl
@[simp] theorem setExec_pin (e : Nat) (c : Option Nat) (s : State) : (setExec e c s).pin = s.pin := rfl
@[simp] theorem setExec_sent (e : Nat) (c : Option Nat) (s : State) : (setExec e c s).sent = s.sent := rfl
@[simp] theorem setExec_freeCount (e : Nat) (c : Option Nat) (s : State) : (setExec e c s).freeCount = s.freeCount := rfl
@[simp] theorem setExec_pending (e : Nat) (c : Option Nat) (s : State) : (setExec e c s).pending = s.pending := rfl

/-! `modDpx` changes `dpx`. -/

@[simp] theorem modDpx_time (f : DuplexSt → DuplexSt) (s : State) : (modDpx f s).time = s.time := rfl
@[simp] theorem modDpx_tick (f : DuplexSt → DuplexSt) (s : State) : (modDpx f s).tick = s.tick := rfl
@[simp] theorem modDpx_markAt (f : DuplexSt → DuplexSt) (s : State) : (modDpx f s).markAt = s.markAt := rfl
@[simp] theorem modDpx_dev (f : DuplexSt → DuplexSt) (s : State) : (modDpx f s).dev = s.dev := rfl
@[simp] theorem modDpx_conv (f : DuplexSt → DuplexSt) (s : State) : (modDpx f s).conv = s.conv := rfl
@[simp] theorem modDpx_role (f : DuplexSt → DuplexSt) (s : State) : (modDpx f s).role = s.role := rfl
@[simp] theorem modDpx_watch (f : DuplexSt → DuplexSt) (s : State) : (modDpx f s).watch = s.watch := rfl
@[simp] theorem modDpx_lanesOn (f : DuplexSt → DuplexSt) (s : State) : (modDpx f s).lanesOn = s.lanesOn := rfl
@[simp] theorem modDpx_litAt (f : DuplexSt → DuplexSt) (s : State) : (modDpx f s).litAt = s.litAt := rfl
@[simp] theorem modDpx_freeze (f : DuplexSt → DuplexSt) (s : State) : (modDpx f s).freeze = s.freeze := rfl
@[simp] theorem modDpx_frozen (f : DuplexSt → DuplexSt) (s : State) : (modDpx f s).frozen = s.frozen := rfl
@[simp] theorem modDpx_suppress (f : DuplexSt → DuplexSt) (s : State) : (modDpx f s).suppress = s.suppress := rfl
@[simp] theorem modDpx_sentWin (f : DuplexSt → DuplexSt) (s : State) : (modDpx f s).sentWin = s.sentWin := rfl
@[simp] theorem modDpx_closeDone (f : DuplexSt → DuplexSt) (s : State) : (modDpx f s).closeDone = s.closeDone := rfl
@[simp] theorem modDpx_frameEnd (f : DuplexSt → DuplexSt) (s : State) : (modDpx f s).frameEnd = s.frameEnd := rfl
@[simp] theorem modDpx_misses (f : DuplexSt → DuplexSt) (s : State) : (modDpx f s).misses = s.misses := rfl
@[simp] theorem modDpx_missDone (f : DuplexSt → DuplexSt) (s : State) : (modDpx f s).missDone = s.missDone := rfl
@[simp] theorem modDpx_shedding (f : DuplexSt → DuplexSt) (s : State) : (modDpx f s).shedding = s.shedding := rfl
@[simp] theorem modDpx_numChange (f : DuplexSt → DuplexSt) (s : State) : (modDpx f s).numChange = s.numChange := rfl
@[simp] theorem modDpx_regs (f : DuplexSt → DuplexSt) (s : State) : (modDpx f s).regs = s.regs := rfl
@[simp] theorem modDpx_tabs (f : DuplexSt → DuplexSt) (s : State) : (modDpx f s).tabs = s.tabs := rfl
@[simp] theorem modDpx_cells (f : DuplexSt → DuplexSt) (s : State) : (modDpx f s).cells = s.cells := rfl
@[simp] theorem modDpx_stWrites (f : DuplexSt → DuplexSt) (s : State) : (modDpx f s).stWrites = s.stWrites := rfl
@[simp] theorem modDpx_rateCancel (f : DuplexSt → DuplexSt) (s : State) : (modDpx f s).rateCancel = s.rateCancel := rfl
@[simp] theorem modDpx_commitAt (f : DuplexSt → DuplexSt) (s : State) : (modDpx f s).commitAt = s.commitAt := rfl
@[simp] theorem modDpx_batches (f : DuplexSt → DuplexSt) (s : State) : (modDpx f s).batches = s.batches := rfl
@[simp] theorem modDpx_avails (f : DuplexSt → DuplexSt) (s : State) : (modDpx f s).avails = s.avails := rfl
@[simp] theorem modDpx_clk (f : DuplexSt → DuplexSt) (s : State) : (modDpx f s).clk = s.clk := rfl
@[simp] theorem modDpx_servo (f : DuplexSt → DuplexSt) (s : State) : (modDpx f s).servo = s.servo := rfl
@[simp] theorem modDpx_lanes (f : DuplexSt → DuplexSt) (s : State) : (modDpx f s).lanes = s.lanes := rfl
@[simp] theorem modDpx_fwJob (f : DuplexSt → DuplexSt) (s : State) : (modDpx f s).fwJob = s.fwJob := rfl
@[simp] theorem modDpx_meas (f : DuplexSt → DuplexSt) (s : State) : (modDpx f s).meas = s.meas := rfl
@[simp] theorem modDpx_chains (f : DuplexSt → DuplexSt) (s : State) : (modDpx f s).chains = s.chains := rfl
@[simp] theorem modDpx_slots (f : DuplexSt → DuplexSt) (s : State) : (modDpx f s).slots = s.slots := rfl
@[simp] theorem modDpx_loopDone (f : DuplexSt → DuplexSt) (s : State) : (modDpx f s).loopDone = s.loopDone := rfl
@[simp] theorem modDpx_loopSeen (f : DuplexSt → DuplexSt) (s : State) : (modDpx f s).loopSeen = s.loopSeen := rfl
@[simp] theorem modDpx_mbx (f : DuplexSt → DuplexSt) (s : State) : (modDpx f s).mbx = s.mbx := rfl
@[simp] theorem modDpx_osc (f : DuplexSt → DuplexSt) (s : State) : (modDpx f s).osc = s.osc := rfl
@[simp] theorem modDpx_arms (f : DuplexSt → DuplexSt) (s : State) : (modDpx f s).arms = s.arms := rfl
@[simp] theorem modDpx_run (f : DuplexSt → DuplexSt) (s : State) : (modDpx f s).run = s.run := rfl
@[simp] theorem modDpx_waitIn (f : DuplexSt → DuplexSt) (s : State) : (modDpx f s).waitIn = s.waitIn := rfl
@[simp] theorem modDpx_ready (f : DuplexSt → DuplexSt) (s : State) : (modDpx f s).ready = s.ready := rfl
@[simp] theorem modDpx_prot (f : DuplexSt → DuplexSt) (s : State) : (modDpx f s).prot = s.prot := rfl
@[simp] theorem modDpx_fcl (f : DuplexSt → DuplexSt) (s : State) : (modDpx f s).fcl = s.fcl := rfl
@[simp] theorem modDpx_bench (f : DuplexSt → DuplexSt) (s : State) : (modDpx f s).bench = s.bench := rfl
@[simp] theorem modDpx_fmn (f : DuplexSt → DuplexSt) (s : State) : (modDpx f s).fmn = s.fmn := rfl
@[simp] theorem modDpx_ledger (f : DuplexSt → DuplexSt) (s : State) : (modDpx f s).ledger = s.ledger := rfl
@[simp] theorem modDpx_ctxs (f : DuplexSt → DuplexSt) (s : State) : (modDpx f s).ctxs = s.ctxs := rfl
@[simp] theorem modDpx_accepted (f : DuplexSt → DuplexSt) (s : State) : (modDpx f s).accepted = s.accepted := rfl
@[simp] theorem modDpx_accCount (f : DuplexSt → DuplexSt) (s : State) : (modDpx f s).accCount = s.accCount := rfl
@[simp] theorem modDpx_net (f : DuplexSt → DuplexSt) (s : State) : (modDpx f s).net = s.net := rfl
@[simp] theorem modDpx_sec (f : DuplexSt → DuplexSt) (s : State) : (modDpx f s).sec = s.sec := rfl
@[simp] theorem modDpx_pwr (f : DuplexSt → DuplexSt) (s : State) : (modDpx f s).pwr = s.pwr := rfl
@[simp] theorem modDpx_pin (f : DuplexSt → DuplexSt) (s : State) : (modDpx f s).pin = s.pin := rfl
@[simp] theorem modDpx_sent (f : DuplexSt → DuplexSt) (s : State) : (modDpx f s).sent = s.sent := rfl
@[simp] theorem modDpx_freeCount (f : DuplexSt → DuplexSt) (s : State) : (modDpx f s).freeCount = s.freeCount := rfl
@[simp] theorem modDpx_pending (f : DuplexSt → DuplexSt) (s : State) : (modDpx f s).pending = s.pending := rfl

/-! `modChain` changes `chains`. -/

@[simp] theorem modChain_time (c : Nat) (f : ChainSt → ChainSt) (s : State) : (modChain c f s).time = s.time := rfl
@[simp] theorem modChain_tick (c : Nat) (f : ChainSt → ChainSt) (s : State) : (modChain c f s).tick = s.tick := rfl
@[simp] theorem modChain_markAt (c : Nat) (f : ChainSt → ChainSt) (s : State) : (modChain c f s).markAt = s.markAt := rfl
@[simp] theorem modChain_dev (c : Nat) (f : ChainSt → ChainSt) (s : State) : (modChain c f s).dev = s.dev := rfl
@[simp] theorem modChain_conv (c : Nat) (f : ChainSt → ChainSt) (s : State) : (modChain c f s).conv = s.conv := rfl
@[simp] theorem modChain_role (c : Nat) (f : ChainSt → ChainSt) (s : State) : (modChain c f s).role = s.role := rfl
@[simp] theorem modChain_watch (c : Nat) (f : ChainSt → ChainSt) (s : State) : (modChain c f s).watch = s.watch := rfl
@[simp] theorem modChain_lanesOn (c : Nat) (f : ChainSt → ChainSt) (s : State) : (modChain c f s).lanesOn = s.lanesOn := rfl
@[simp] theorem modChain_litAt (c : Nat) (f : ChainSt → ChainSt) (s : State) : (modChain c f s).litAt = s.litAt := rfl
@[simp] theorem modChain_freeze (c : Nat) (f : ChainSt → ChainSt) (s : State) : (modChain c f s).freeze = s.freeze := rfl
@[simp] theorem modChain_frozen (c : Nat) (f : ChainSt → ChainSt) (s : State) : (modChain c f s).frozen = s.frozen := rfl
@[simp] theorem modChain_suppress (c : Nat) (f : ChainSt → ChainSt) (s : State) : (modChain c f s).suppress = s.suppress := rfl
@[simp] theorem modChain_sentWin (c : Nat) (f : ChainSt → ChainSt) (s : State) : (modChain c f s).sentWin = s.sentWin := rfl
@[simp] theorem modChain_closeDone (c : Nat) (f : ChainSt → ChainSt) (s : State) : (modChain c f s).closeDone = s.closeDone := rfl
@[simp] theorem modChain_frameEnd (c : Nat) (f : ChainSt → ChainSt) (s : State) : (modChain c f s).frameEnd = s.frameEnd := rfl
@[simp] theorem modChain_misses (c : Nat) (f : ChainSt → ChainSt) (s : State) : (modChain c f s).misses = s.misses := rfl
@[simp] theorem modChain_missDone (c : Nat) (f : ChainSt → ChainSt) (s : State) : (modChain c f s).missDone = s.missDone := rfl
@[simp] theorem modChain_shedding (c : Nat) (f : ChainSt → ChainSt) (s : State) : (modChain c f s).shedding = s.shedding := rfl
@[simp] theorem modChain_numChange (c : Nat) (f : ChainSt → ChainSt) (s : State) : (modChain c f s).numChange = s.numChange := rfl
@[simp] theorem modChain_regs (c : Nat) (f : ChainSt → ChainSt) (s : State) : (modChain c f s).regs = s.regs := rfl
@[simp] theorem modChain_tabs (c : Nat) (f : ChainSt → ChainSt) (s : State) : (modChain c f s).tabs = s.tabs := rfl
@[simp] theorem modChain_cells (c : Nat) (f : ChainSt → ChainSt) (s : State) : (modChain c f s).cells = s.cells := rfl
@[simp] theorem modChain_stWrites (c : Nat) (f : ChainSt → ChainSt) (s : State) : (modChain c f s).stWrites = s.stWrites := rfl
@[simp] theorem modChain_rateCancel (c : Nat) (f : ChainSt → ChainSt) (s : State) : (modChain c f s).rateCancel = s.rateCancel := rfl
@[simp] theorem modChain_commitAt (c : Nat) (f : ChainSt → ChainSt) (s : State) : (modChain c f s).commitAt = s.commitAt := rfl
@[simp] theorem modChain_batches (c : Nat) (f : ChainSt → ChainSt) (s : State) : (modChain c f s).batches = s.batches := rfl
@[simp] theorem modChain_avails (c : Nat) (f : ChainSt → ChainSt) (s : State) : (modChain c f s).avails = s.avails := rfl
@[simp] theorem modChain_clk (c : Nat) (f : ChainSt → ChainSt) (s : State) : (modChain c f s).clk = s.clk := rfl
@[simp] theorem modChain_servo (c : Nat) (f : ChainSt → ChainSt) (s : State) : (modChain c f s).servo = s.servo := rfl
@[simp] theorem modChain_lanes (c : Nat) (f : ChainSt → ChainSt) (s : State) : (modChain c f s).lanes = s.lanes := rfl
@[simp] theorem modChain_fwJob (c : Nat) (f : ChainSt → ChainSt) (s : State) : (modChain c f s).fwJob = s.fwJob := rfl
@[simp] theorem modChain_meas (c : Nat) (f : ChainSt → ChainSt) (s : State) : (modChain c f s).meas = s.meas := rfl
@[simp] theorem modChain_slots (c : Nat) (f : ChainSt → ChainSt) (s : State) : (modChain c f s).slots = s.slots := rfl
@[simp] theorem modChain_loopDone (c : Nat) (f : ChainSt → ChainSt) (s : State) : (modChain c f s).loopDone = s.loopDone := rfl
@[simp] theorem modChain_loopSeen (c : Nat) (f : ChainSt → ChainSt) (s : State) : (modChain c f s).loopSeen = s.loopSeen := rfl
@[simp] theorem modChain_mbx (c : Nat) (f : ChainSt → ChainSt) (s : State) : (modChain c f s).mbx = s.mbx := rfl
@[simp] theorem modChain_osc (c : Nat) (f : ChainSt → ChainSt) (s : State) : (modChain c f s).osc = s.osc := rfl
@[simp] theorem modChain_arms (c : Nat) (f : ChainSt → ChainSt) (s : State) : (modChain c f s).arms = s.arms := rfl
@[simp] theorem modChain_run (c : Nat) (f : ChainSt → ChainSt) (s : State) : (modChain c f s).run = s.run := rfl
@[simp] theorem modChain_waitIn (c : Nat) (f : ChainSt → ChainSt) (s : State) : (modChain c f s).waitIn = s.waitIn := rfl
@[simp] theorem modChain_ready (c : Nat) (f : ChainSt → ChainSt) (s : State) : (modChain c f s).ready = s.ready := rfl
@[simp] theorem modChain_prot (c : Nat) (f : ChainSt → ChainSt) (s : State) : (modChain c f s).prot = s.prot := rfl
@[simp] theorem modChain_dpx (c : Nat) (f : ChainSt → ChainSt) (s : State) : (modChain c f s).dpx = s.dpx := rfl
@[simp] theorem modChain_fcl (c : Nat) (f : ChainSt → ChainSt) (s : State) : (modChain c f s).fcl = s.fcl := rfl
@[simp] theorem modChain_bench (c : Nat) (f : ChainSt → ChainSt) (s : State) : (modChain c f s).bench = s.bench := rfl
@[simp] theorem modChain_fmn (c : Nat) (f : ChainSt → ChainSt) (s : State) : (modChain c f s).fmn = s.fmn := rfl
@[simp] theorem modChain_ledger (c : Nat) (f : ChainSt → ChainSt) (s : State) : (modChain c f s).ledger = s.ledger := rfl
@[simp] theorem modChain_ctxs (c : Nat) (f : ChainSt → ChainSt) (s : State) : (modChain c f s).ctxs = s.ctxs := rfl
@[simp] theorem modChain_accepted (c : Nat) (f : ChainSt → ChainSt) (s : State) : (modChain c f s).accepted = s.accepted := rfl
@[simp] theorem modChain_accCount (c : Nat) (f : ChainSt → ChainSt) (s : State) : (modChain c f s).accCount = s.accCount := rfl
@[simp] theorem modChain_net (c : Nat) (f : ChainSt → ChainSt) (s : State) : (modChain c f s).net = s.net := rfl
@[simp] theorem modChain_sec (c : Nat) (f : ChainSt → ChainSt) (s : State) : (modChain c f s).sec = s.sec := rfl
@[simp] theorem modChain_pwr (c : Nat) (f : ChainSt → ChainSt) (s : State) : (modChain c f s).pwr = s.pwr := rfl
@[simp] theorem modChain_pin (c : Nat) (f : ChainSt → ChainSt) (s : State) : (modChain c f s).pin = s.pin := rfl
@[simp] theorem modChain_sent (c : Nat) (f : ChainSt → ChainSt) (s : State) : (modChain c f s).sent = s.sent := rfl
@[simp] theorem modChain_freeCount (c : Nat) (f : ChainSt → ChainSt) (s : State) : (modChain c f s).freeCount = s.freeCount := rfl
@[simp] theorem modChain_pending (c : Nat) (f : ChainSt → ChainSt) (s : State) : (modChain c f s).pending = s.pending := rfl

/-! `modHctx` changes `ctxs`. -/

@[simp] theorem modHctx_time (n : Nat) (f : HostCtx → HostCtx) (s : State) : (modHctx n f s).time = s.time := rfl
@[simp] theorem modHctx_tick (n : Nat) (f : HostCtx → HostCtx) (s : State) : (modHctx n f s).tick = s.tick := rfl
@[simp] theorem modHctx_markAt (n : Nat) (f : HostCtx → HostCtx) (s : State) : (modHctx n f s).markAt = s.markAt := rfl
@[simp] theorem modHctx_dev (n : Nat) (f : HostCtx → HostCtx) (s : State) : (modHctx n f s).dev = s.dev := rfl
@[simp] theorem modHctx_conv (n : Nat) (f : HostCtx → HostCtx) (s : State) : (modHctx n f s).conv = s.conv := rfl
@[simp] theorem modHctx_role (n : Nat) (f : HostCtx → HostCtx) (s : State) : (modHctx n f s).role = s.role := rfl
@[simp] theorem modHctx_watch (n : Nat) (f : HostCtx → HostCtx) (s : State) : (modHctx n f s).watch = s.watch := rfl
@[simp] theorem modHctx_lanesOn (n : Nat) (f : HostCtx → HostCtx) (s : State) : (modHctx n f s).lanesOn = s.lanesOn := rfl
@[simp] theorem modHctx_litAt (n : Nat) (f : HostCtx → HostCtx) (s : State) : (modHctx n f s).litAt = s.litAt := rfl
@[simp] theorem modHctx_freeze (n : Nat) (f : HostCtx → HostCtx) (s : State) : (modHctx n f s).freeze = s.freeze := rfl
@[simp] theorem modHctx_frozen (n : Nat) (f : HostCtx → HostCtx) (s : State) : (modHctx n f s).frozen = s.frozen := rfl
@[simp] theorem modHctx_suppress (n : Nat) (f : HostCtx → HostCtx) (s : State) : (modHctx n f s).suppress = s.suppress := rfl
@[simp] theorem modHctx_sentWin (n : Nat) (f : HostCtx → HostCtx) (s : State) : (modHctx n f s).sentWin = s.sentWin := rfl
@[simp] theorem modHctx_closeDone (n : Nat) (f : HostCtx → HostCtx) (s : State) : (modHctx n f s).closeDone = s.closeDone := rfl
@[simp] theorem modHctx_frameEnd (n : Nat) (f : HostCtx → HostCtx) (s : State) : (modHctx n f s).frameEnd = s.frameEnd := rfl
@[simp] theorem modHctx_misses (n : Nat) (f : HostCtx → HostCtx) (s : State) : (modHctx n f s).misses = s.misses := rfl
@[simp] theorem modHctx_missDone (n : Nat) (f : HostCtx → HostCtx) (s : State) : (modHctx n f s).missDone = s.missDone := rfl
@[simp] theorem modHctx_shedding (n : Nat) (f : HostCtx → HostCtx) (s : State) : (modHctx n f s).shedding = s.shedding := rfl
@[simp] theorem modHctx_numChange (n : Nat) (f : HostCtx → HostCtx) (s : State) : (modHctx n f s).numChange = s.numChange := rfl
@[simp] theorem modHctx_regs (n : Nat) (f : HostCtx → HostCtx) (s : State) : (modHctx n f s).regs = s.regs := rfl
@[simp] theorem modHctx_tabs (n : Nat) (f : HostCtx → HostCtx) (s : State) : (modHctx n f s).tabs = s.tabs := rfl
@[simp] theorem modHctx_cells (n : Nat) (f : HostCtx → HostCtx) (s : State) : (modHctx n f s).cells = s.cells := rfl
@[simp] theorem modHctx_stWrites (n : Nat) (f : HostCtx → HostCtx) (s : State) : (modHctx n f s).stWrites = s.stWrites := rfl
@[simp] theorem modHctx_rateCancel (n : Nat) (f : HostCtx → HostCtx) (s : State) : (modHctx n f s).rateCancel = s.rateCancel := rfl
@[simp] theorem modHctx_commitAt (n : Nat) (f : HostCtx → HostCtx) (s : State) : (modHctx n f s).commitAt = s.commitAt := rfl
@[simp] theorem modHctx_batches (n : Nat) (f : HostCtx → HostCtx) (s : State) : (modHctx n f s).batches = s.batches := rfl
@[simp] theorem modHctx_avails (n : Nat) (f : HostCtx → HostCtx) (s : State) : (modHctx n f s).avails = s.avails := rfl
@[simp] theorem modHctx_clk (n : Nat) (f : HostCtx → HostCtx) (s : State) : (modHctx n f s).clk = s.clk := rfl
@[simp] theorem modHctx_servo (n : Nat) (f : HostCtx → HostCtx) (s : State) : (modHctx n f s).servo = s.servo := rfl
@[simp] theorem modHctx_lanes (n : Nat) (f : HostCtx → HostCtx) (s : State) : (modHctx n f s).lanes = s.lanes := rfl
@[simp] theorem modHctx_fwJob (n : Nat) (f : HostCtx → HostCtx) (s : State) : (modHctx n f s).fwJob = s.fwJob := rfl
@[simp] theorem modHctx_meas (n : Nat) (f : HostCtx → HostCtx) (s : State) : (modHctx n f s).meas = s.meas := rfl
@[simp] theorem modHctx_chains (n : Nat) (f : HostCtx → HostCtx) (s : State) : (modHctx n f s).chains = s.chains := rfl
@[simp] theorem modHctx_slots (n : Nat) (f : HostCtx → HostCtx) (s : State) : (modHctx n f s).slots = s.slots := rfl
@[simp] theorem modHctx_loopDone (n : Nat) (f : HostCtx → HostCtx) (s : State) : (modHctx n f s).loopDone = s.loopDone := rfl
@[simp] theorem modHctx_loopSeen (n : Nat) (f : HostCtx → HostCtx) (s : State) : (modHctx n f s).loopSeen = s.loopSeen := rfl
@[simp] theorem modHctx_mbx (n : Nat) (f : HostCtx → HostCtx) (s : State) : (modHctx n f s).mbx = s.mbx := rfl
@[simp] theorem modHctx_osc (n : Nat) (f : HostCtx → HostCtx) (s : State) : (modHctx n f s).osc = s.osc := rfl
@[simp] theorem modHctx_arms (n : Nat) (f : HostCtx → HostCtx) (s : State) : (modHctx n f s).arms = s.arms := rfl
@[simp] theorem modHctx_run (n : Nat) (f : HostCtx → HostCtx) (s : State) : (modHctx n f s).run = s.run := rfl
@[simp] theorem modHctx_waitIn (n : Nat) (f : HostCtx → HostCtx) (s : State) : (modHctx n f s).waitIn = s.waitIn := rfl
@[simp] theorem modHctx_ready (n : Nat) (f : HostCtx → HostCtx) (s : State) : (modHctx n f s).ready = s.ready := rfl
@[simp] theorem modHctx_prot (n : Nat) (f : HostCtx → HostCtx) (s : State) : (modHctx n f s).prot = s.prot := rfl
@[simp] theorem modHctx_dpx (n : Nat) (f : HostCtx → HostCtx) (s : State) : (modHctx n f s).dpx = s.dpx := rfl
@[simp] theorem modHctx_fcl (n : Nat) (f : HostCtx → HostCtx) (s : State) : (modHctx n f s).fcl = s.fcl := rfl
@[simp] theorem modHctx_bench (n : Nat) (f : HostCtx → HostCtx) (s : State) : (modHctx n f s).bench = s.bench := rfl
@[simp] theorem modHctx_fmn (n : Nat) (f : HostCtx → HostCtx) (s : State) : (modHctx n f s).fmn = s.fmn := rfl
@[simp] theorem modHctx_ledger (n : Nat) (f : HostCtx → HostCtx) (s : State) : (modHctx n f s).ledger = s.ledger := rfl
@[simp] theorem modHctx_accepted (n : Nat) (f : HostCtx → HostCtx) (s : State) : (modHctx n f s).accepted = s.accepted := rfl
@[simp] theorem modHctx_accCount (n : Nat) (f : HostCtx → HostCtx) (s : State) : (modHctx n f s).accCount = s.accCount := rfl
@[simp] theorem modHctx_net (n : Nat) (f : HostCtx → HostCtx) (s : State) : (modHctx n f s).net = s.net := rfl
@[simp] theorem modHctx_sec (n : Nat) (f : HostCtx → HostCtx) (s : State) : (modHctx n f s).sec = s.sec := rfl
@[simp] theorem modHctx_pwr (n : Nat) (f : HostCtx → HostCtx) (s : State) : (modHctx n f s).pwr = s.pwr := rfl
@[simp] theorem modHctx_pin (n : Nat) (f : HostCtx → HostCtx) (s : State) : (modHctx n f s).pin = s.pin := rfl
@[simp] theorem modHctx_sent (n : Nat) (f : HostCtx → HostCtx) (s : State) : (modHctx n f s).sent = s.sent := rfl
@[simp] theorem modHctx_freeCount (n : Nat) (f : HostCtx → HostCtx) (s : State) : (modHctx n f s).freeCount = s.freeCount := rfl
@[simp] theorem modHctx_pending (n : Nat) (f : HostCtx → HostCtx) (s : State) : (modHctx n f s).pending = s.pending := rfl

/-! `modLane` changes `lanes`. -/

@[simp] theorem modLane_time (l : Nat) (f : LaneSt → LaneSt) (s : State) : (modLane l f s).time = s.time := rfl
@[simp] theorem modLane_tick (l : Nat) (f : LaneSt → LaneSt) (s : State) : (modLane l f s).tick = s.tick := rfl
@[simp] theorem modLane_markAt (l : Nat) (f : LaneSt → LaneSt) (s : State) : (modLane l f s).markAt = s.markAt := rfl
@[simp] theorem modLane_dev (l : Nat) (f : LaneSt → LaneSt) (s : State) : (modLane l f s).dev = s.dev := rfl
@[simp] theorem modLane_conv (l : Nat) (f : LaneSt → LaneSt) (s : State) : (modLane l f s).conv = s.conv := rfl
@[simp] theorem modLane_role (l : Nat) (f : LaneSt → LaneSt) (s : State) : (modLane l f s).role = s.role := rfl
@[simp] theorem modLane_watch (l : Nat) (f : LaneSt → LaneSt) (s : State) : (modLane l f s).watch = s.watch := rfl
@[simp] theorem modLane_lanesOn (l : Nat) (f : LaneSt → LaneSt) (s : State) : (modLane l f s).lanesOn = s.lanesOn := rfl
@[simp] theorem modLane_litAt (l : Nat) (f : LaneSt → LaneSt) (s : State) : (modLane l f s).litAt = s.litAt := rfl
@[simp] theorem modLane_freeze (l : Nat) (f : LaneSt → LaneSt) (s : State) : (modLane l f s).freeze = s.freeze := rfl
@[simp] theorem modLane_frozen (l : Nat) (f : LaneSt → LaneSt) (s : State) : (modLane l f s).frozen = s.frozen := rfl
@[simp] theorem modLane_suppress (l : Nat) (f : LaneSt → LaneSt) (s : State) : (modLane l f s).suppress = s.suppress := rfl
@[simp] theorem modLane_sentWin (l : Nat) (f : LaneSt → LaneSt) (s : State) : (modLane l f s).sentWin = s.sentWin := rfl
@[simp] theorem modLane_closeDone (l : Nat) (f : LaneSt → LaneSt) (s : State) : (modLane l f s).closeDone = s.closeDone := rfl
@[simp] theorem modLane_frameEnd (l : Nat) (f : LaneSt → LaneSt) (s : State) : (modLane l f s).frameEnd = s.frameEnd := rfl
@[simp] theorem modLane_misses (l : Nat) (f : LaneSt → LaneSt) (s : State) : (modLane l f s).misses = s.misses := rfl
@[simp] theorem modLane_missDone (l : Nat) (f : LaneSt → LaneSt) (s : State) : (modLane l f s).missDone = s.missDone := rfl
@[simp] theorem modLane_shedding (l : Nat) (f : LaneSt → LaneSt) (s : State) : (modLane l f s).shedding = s.shedding := rfl
@[simp] theorem modLane_numChange (l : Nat) (f : LaneSt → LaneSt) (s : State) : (modLane l f s).numChange = s.numChange := rfl
@[simp] theorem modLane_regs (l : Nat) (f : LaneSt → LaneSt) (s : State) : (modLane l f s).regs = s.regs := rfl
@[simp] theorem modLane_tabs (l : Nat) (f : LaneSt → LaneSt) (s : State) : (modLane l f s).tabs = s.tabs := rfl
@[simp] theorem modLane_cells (l : Nat) (f : LaneSt → LaneSt) (s : State) : (modLane l f s).cells = s.cells := rfl
@[simp] theorem modLane_stWrites (l : Nat) (f : LaneSt → LaneSt) (s : State) : (modLane l f s).stWrites = s.stWrites := rfl
@[simp] theorem modLane_rateCancel (l : Nat) (f : LaneSt → LaneSt) (s : State) : (modLane l f s).rateCancel = s.rateCancel := rfl
@[simp] theorem modLane_commitAt (l : Nat) (f : LaneSt → LaneSt) (s : State) : (modLane l f s).commitAt = s.commitAt := rfl
@[simp] theorem modLane_batches (l : Nat) (f : LaneSt → LaneSt) (s : State) : (modLane l f s).batches = s.batches := rfl
@[simp] theorem modLane_avails (l : Nat) (f : LaneSt → LaneSt) (s : State) : (modLane l f s).avails = s.avails := rfl
@[simp] theorem modLane_clk (l : Nat) (f : LaneSt → LaneSt) (s : State) : (modLane l f s).clk = s.clk := rfl
@[simp] theorem modLane_servo (l : Nat) (f : LaneSt → LaneSt) (s : State) : (modLane l f s).servo = s.servo := rfl
@[simp] theorem modLane_fwJob (l : Nat) (f : LaneSt → LaneSt) (s : State) : (modLane l f s).fwJob = s.fwJob := rfl
@[simp] theorem modLane_meas (l : Nat) (f : LaneSt → LaneSt) (s : State) : (modLane l f s).meas = s.meas := rfl
@[simp] theorem modLane_chains (l : Nat) (f : LaneSt → LaneSt) (s : State) : (modLane l f s).chains = s.chains := rfl
@[simp] theorem modLane_slots (l : Nat) (f : LaneSt → LaneSt) (s : State) : (modLane l f s).slots = s.slots := rfl
@[simp] theorem modLane_loopDone (l : Nat) (f : LaneSt → LaneSt) (s : State) : (modLane l f s).loopDone = s.loopDone := rfl
@[simp] theorem modLane_loopSeen (l : Nat) (f : LaneSt → LaneSt) (s : State) : (modLane l f s).loopSeen = s.loopSeen := rfl
@[simp] theorem modLane_mbx (l : Nat) (f : LaneSt → LaneSt) (s : State) : (modLane l f s).mbx = s.mbx := rfl
@[simp] theorem modLane_osc (l : Nat) (f : LaneSt → LaneSt) (s : State) : (modLane l f s).osc = s.osc := rfl
@[simp] theorem modLane_arms (l : Nat) (f : LaneSt → LaneSt) (s : State) : (modLane l f s).arms = s.arms := rfl
@[simp] theorem modLane_run (l : Nat) (f : LaneSt → LaneSt) (s : State) : (modLane l f s).run = s.run := rfl
@[simp] theorem modLane_waitIn (l : Nat) (f : LaneSt → LaneSt) (s : State) : (modLane l f s).waitIn = s.waitIn := rfl
@[simp] theorem modLane_ready (l : Nat) (f : LaneSt → LaneSt) (s : State) : (modLane l f s).ready = s.ready := rfl
@[simp] theorem modLane_prot (l : Nat) (f : LaneSt → LaneSt) (s : State) : (modLane l f s).prot = s.prot := rfl
@[simp] theorem modLane_dpx (l : Nat) (f : LaneSt → LaneSt) (s : State) : (modLane l f s).dpx = s.dpx := rfl
@[simp] theorem modLane_fcl (l : Nat) (f : LaneSt → LaneSt) (s : State) : (modLane l f s).fcl = s.fcl := rfl
@[simp] theorem modLane_bench (l : Nat) (f : LaneSt → LaneSt) (s : State) : (modLane l f s).bench = s.bench := rfl
@[simp] theorem modLane_fmn (l : Nat) (f : LaneSt → LaneSt) (s : State) : (modLane l f s).fmn = s.fmn := rfl
@[simp] theorem modLane_ledger (l : Nat) (f : LaneSt → LaneSt) (s : State) : (modLane l f s).ledger = s.ledger := rfl
@[simp] theorem modLane_ctxs (l : Nat) (f : LaneSt → LaneSt) (s : State) : (modLane l f s).ctxs = s.ctxs := rfl
@[simp] theorem modLane_accepted (l : Nat) (f : LaneSt → LaneSt) (s : State) : (modLane l f s).accepted = s.accepted := rfl
@[simp] theorem modLane_accCount (l : Nat) (f : LaneSt → LaneSt) (s : State) : (modLane l f s).accCount = s.accCount := rfl
@[simp] theorem modLane_net (l : Nat) (f : LaneSt → LaneSt) (s : State) : (modLane l f s).net = s.net := rfl
@[simp] theorem modLane_sec (l : Nat) (f : LaneSt → LaneSt) (s : State) : (modLane l f s).sec = s.sec := rfl
@[simp] theorem modLane_pwr (l : Nat) (f : LaneSt → LaneSt) (s : State) : (modLane l f s).pwr = s.pwr := rfl
@[simp] theorem modLane_pin (l : Nat) (f : LaneSt → LaneSt) (s : State) : (modLane l f s).pin = s.pin := rfl
@[simp] theorem modLane_sent (l : Nat) (f : LaneSt → LaneSt) (s : State) : (modLane l f s).sent = s.sent := rfl
@[simp] theorem modLane_freeCount (l : Nat) (f : LaneSt → LaneSt) (s : State) : (modLane l f s).freeCount = s.freeCount := rfl
@[simp] theorem modLane_pending (l : Nat) (f : LaneSt → LaneSt) (s : State) : (modLane l f s).pending = s.pending := rfl

/-! `modLedger` changes `ledger`. -/

@[simp] theorem modLedger_time (f : LedgerSt → LedgerSt) (s : State) : (modLedger f s).time = s.time := rfl
@[simp] theorem modLedger_tick (f : LedgerSt → LedgerSt) (s : State) : (modLedger f s).tick = s.tick := rfl
@[simp] theorem modLedger_markAt (f : LedgerSt → LedgerSt) (s : State) : (modLedger f s).markAt = s.markAt := rfl
@[simp] theorem modLedger_dev (f : LedgerSt → LedgerSt) (s : State) : (modLedger f s).dev = s.dev := rfl
@[simp] theorem modLedger_conv (f : LedgerSt → LedgerSt) (s : State) : (modLedger f s).conv = s.conv := rfl
@[simp] theorem modLedger_role (f : LedgerSt → LedgerSt) (s : State) : (modLedger f s).role = s.role := rfl
@[simp] theorem modLedger_watch (f : LedgerSt → LedgerSt) (s : State) : (modLedger f s).watch = s.watch := rfl
@[simp] theorem modLedger_lanesOn (f : LedgerSt → LedgerSt) (s : State) : (modLedger f s).lanesOn = s.lanesOn := rfl
@[simp] theorem modLedger_litAt (f : LedgerSt → LedgerSt) (s : State) : (modLedger f s).litAt = s.litAt := rfl
@[simp] theorem modLedger_freeze (f : LedgerSt → LedgerSt) (s : State) : (modLedger f s).freeze = s.freeze := rfl
@[simp] theorem modLedger_frozen (f : LedgerSt → LedgerSt) (s : State) : (modLedger f s).frozen = s.frozen := rfl
@[simp] theorem modLedger_suppress (f : LedgerSt → LedgerSt) (s : State) : (modLedger f s).suppress = s.suppress := rfl
@[simp] theorem modLedger_sentWin (f : LedgerSt → LedgerSt) (s : State) : (modLedger f s).sentWin = s.sentWin := rfl
@[simp] theorem modLedger_closeDone (f : LedgerSt → LedgerSt) (s : State) : (modLedger f s).closeDone = s.closeDone := rfl
@[simp] theorem modLedger_frameEnd (f : LedgerSt → LedgerSt) (s : State) : (modLedger f s).frameEnd = s.frameEnd := rfl
@[simp] theorem modLedger_misses (f : LedgerSt → LedgerSt) (s : State) : (modLedger f s).misses = s.misses := rfl
@[simp] theorem modLedger_missDone (f : LedgerSt → LedgerSt) (s : State) : (modLedger f s).missDone = s.missDone := rfl
@[simp] theorem modLedger_shedding (f : LedgerSt → LedgerSt) (s : State) : (modLedger f s).shedding = s.shedding := rfl
@[simp] theorem modLedger_numChange (f : LedgerSt → LedgerSt) (s : State) : (modLedger f s).numChange = s.numChange := rfl
@[simp] theorem modLedger_regs (f : LedgerSt → LedgerSt) (s : State) : (modLedger f s).regs = s.regs := rfl
@[simp] theorem modLedger_tabs (f : LedgerSt → LedgerSt) (s : State) : (modLedger f s).tabs = s.tabs := rfl
@[simp] theorem modLedger_cells (f : LedgerSt → LedgerSt) (s : State) : (modLedger f s).cells = s.cells := rfl
@[simp] theorem modLedger_stWrites (f : LedgerSt → LedgerSt) (s : State) : (modLedger f s).stWrites = s.stWrites := rfl
@[simp] theorem modLedger_rateCancel (f : LedgerSt → LedgerSt) (s : State) : (modLedger f s).rateCancel = s.rateCancel := rfl
@[simp] theorem modLedger_commitAt (f : LedgerSt → LedgerSt) (s : State) : (modLedger f s).commitAt = s.commitAt := rfl
@[simp] theorem modLedger_batches (f : LedgerSt → LedgerSt) (s : State) : (modLedger f s).batches = s.batches := rfl
@[simp] theorem modLedger_avails (f : LedgerSt → LedgerSt) (s : State) : (modLedger f s).avails = s.avails := rfl
@[simp] theorem modLedger_clk (f : LedgerSt → LedgerSt) (s : State) : (modLedger f s).clk = s.clk := rfl
@[simp] theorem modLedger_servo (f : LedgerSt → LedgerSt) (s : State) : (modLedger f s).servo = s.servo := rfl
@[simp] theorem modLedger_lanes (f : LedgerSt → LedgerSt) (s : State) : (modLedger f s).lanes = s.lanes := rfl
@[simp] theorem modLedger_fwJob (f : LedgerSt → LedgerSt) (s : State) : (modLedger f s).fwJob = s.fwJob := rfl
@[simp] theorem modLedger_meas (f : LedgerSt → LedgerSt) (s : State) : (modLedger f s).meas = s.meas := rfl
@[simp] theorem modLedger_chains (f : LedgerSt → LedgerSt) (s : State) : (modLedger f s).chains = s.chains := rfl
@[simp] theorem modLedger_slots (f : LedgerSt → LedgerSt) (s : State) : (modLedger f s).slots = s.slots := rfl
@[simp] theorem modLedger_loopDone (f : LedgerSt → LedgerSt) (s : State) : (modLedger f s).loopDone = s.loopDone := rfl
@[simp] theorem modLedger_loopSeen (f : LedgerSt → LedgerSt) (s : State) : (modLedger f s).loopSeen = s.loopSeen := rfl
@[simp] theorem modLedger_mbx (f : LedgerSt → LedgerSt) (s : State) : (modLedger f s).mbx = s.mbx := rfl
@[simp] theorem modLedger_osc (f : LedgerSt → LedgerSt) (s : State) : (modLedger f s).osc = s.osc := rfl
@[simp] theorem modLedger_arms (f : LedgerSt → LedgerSt) (s : State) : (modLedger f s).arms = s.arms := rfl
@[simp] theorem modLedger_run (f : LedgerSt → LedgerSt) (s : State) : (modLedger f s).run = s.run := rfl
@[simp] theorem modLedger_waitIn (f : LedgerSt → LedgerSt) (s : State) : (modLedger f s).waitIn = s.waitIn := rfl
@[simp] theorem modLedger_ready (f : LedgerSt → LedgerSt) (s : State) : (modLedger f s).ready = s.ready := rfl
@[simp] theorem modLedger_prot (f : LedgerSt → LedgerSt) (s : State) : (modLedger f s).prot = s.prot := rfl
@[simp] theorem modLedger_dpx (f : LedgerSt → LedgerSt) (s : State) : (modLedger f s).dpx = s.dpx := rfl
@[simp] theorem modLedger_fcl (f : LedgerSt → LedgerSt) (s : State) : (modLedger f s).fcl = s.fcl := rfl
@[simp] theorem modLedger_bench (f : LedgerSt → LedgerSt) (s : State) : (modLedger f s).bench = s.bench := rfl
@[simp] theorem modLedger_fmn (f : LedgerSt → LedgerSt) (s : State) : (modLedger f s).fmn = s.fmn := rfl
@[simp] theorem modLedger_ctxs (f : LedgerSt → LedgerSt) (s : State) : (modLedger f s).ctxs = s.ctxs := rfl
@[simp] theorem modLedger_accepted (f : LedgerSt → LedgerSt) (s : State) : (modLedger f s).accepted = s.accepted := rfl
@[simp] theorem modLedger_accCount (f : LedgerSt → LedgerSt) (s : State) : (modLedger f s).accCount = s.accCount := rfl
@[simp] theorem modLedger_net (f : LedgerSt → LedgerSt) (s : State) : (modLedger f s).net = s.net := rfl
@[simp] theorem modLedger_sec (f : LedgerSt → LedgerSt) (s : State) : (modLedger f s).sec = s.sec := rfl
@[simp] theorem modLedger_pwr (f : LedgerSt → LedgerSt) (s : State) : (modLedger f s).pwr = s.pwr := rfl
@[simp] theorem modLedger_pin (f : LedgerSt → LedgerSt) (s : State) : (modLedger f s).pin = s.pin := rfl
@[simp] theorem modLedger_sent (f : LedgerSt → LedgerSt) (s : State) : (modLedger f s).sent = s.sent := rfl
@[simp] theorem modLedger_freeCount (f : LedgerSt → LedgerSt) (s : State) : (modLedger f s).freeCount = s.freeCount := rfl
@[simp] theorem modLedger_pending (f : LedgerSt → LedgerSt) (s : State) : (modLedger f s).pending = s.pending := rfl

/-! `modSlot` changes `slots`. -/

@[simp] theorem modSlot_time (k : Nat) (f : SlotSt → SlotSt) (s : State) : (modSlot k f s).time = s.time := rfl
@[simp] theorem modSlot_tick (k : Nat) (f : SlotSt → SlotSt) (s : State) : (modSlot k f s).tick = s.tick := rfl
@[simp] theorem modSlot_markAt (k : Nat) (f : SlotSt → SlotSt) (s : State) : (modSlot k f s).markAt = s.markAt := rfl
@[simp] theorem modSlot_dev (k : Nat) (f : SlotSt → SlotSt) (s : State) : (modSlot k f s).dev = s.dev := rfl
@[simp] theorem modSlot_conv (k : Nat) (f : SlotSt → SlotSt) (s : State) : (modSlot k f s).conv = s.conv := rfl
@[simp] theorem modSlot_role (k : Nat) (f : SlotSt → SlotSt) (s : State) : (modSlot k f s).role = s.role := rfl
@[simp] theorem modSlot_watch (k : Nat) (f : SlotSt → SlotSt) (s : State) : (modSlot k f s).watch = s.watch := rfl
@[simp] theorem modSlot_lanesOn (k : Nat) (f : SlotSt → SlotSt) (s : State) : (modSlot k f s).lanesOn = s.lanesOn := rfl
@[simp] theorem modSlot_litAt (k : Nat) (f : SlotSt → SlotSt) (s : State) : (modSlot k f s).litAt = s.litAt := rfl
@[simp] theorem modSlot_freeze (k : Nat) (f : SlotSt → SlotSt) (s : State) : (modSlot k f s).freeze = s.freeze := rfl
@[simp] theorem modSlot_frozen (k : Nat) (f : SlotSt → SlotSt) (s : State) : (modSlot k f s).frozen = s.frozen := rfl
@[simp] theorem modSlot_suppress (k : Nat) (f : SlotSt → SlotSt) (s : State) : (modSlot k f s).suppress = s.suppress := rfl
@[simp] theorem modSlot_sentWin (k : Nat) (f : SlotSt → SlotSt) (s : State) : (modSlot k f s).sentWin = s.sentWin := rfl
@[simp] theorem modSlot_closeDone (k : Nat) (f : SlotSt → SlotSt) (s : State) : (modSlot k f s).closeDone = s.closeDone := rfl
@[simp] theorem modSlot_frameEnd (k : Nat) (f : SlotSt → SlotSt) (s : State) : (modSlot k f s).frameEnd = s.frameEnd := rfl
@[simp] theorem modSlot_misses (k : Nat) (f : SlotSt → SlotSt) (s : State) : (modSlot k f s).misses = s.misses := rfl
@[simp] theorem modSlot_missDone (k : Nat) (f : SlotSt → SlotSt) (s : State) : (modSlot k f s).missDone = s.missDone := rfl
@[simp] theorem modSlot_shedding (k : Nat) (f : SlotSt → SlotSt) (s : State) : (modSlot k f s).shedding = s.shedding := rfl
@[simp] theorem modSlot_numChange (k : Nat) (f : SlotSt → SlotSt) (s : State) : (modSlot k f s).numChange = s.numChange := rfl
@[simp] theorem modSlot_regs (k : Nat) (f : SlotSt → SlotSt) (s : State) : (modSlot k f s).regs = s.regs := rfl
@[simp] theorem modSlot_tabs (k : Nat) (f : SlotSt → SlotSt) (s : State) : (modSlot k f s).tabs = s.tabs := rfl
@[simp] theorem modSlot_cells (k : Nat) (f : SlotSt → SlotSt) (s : State) : (modSlot k f s).cells = s.cells := rfl
@[simp] theorem modSlot_stWrites (k : Nat) (f : SlotSt → SlotSt) (s : State) : (modSlot k f s).stWrites = s.stWrites := rfl
@[simp] theorem modSlot_rateCancel (k : Nat) (f : SlotSt → SlotSt) (s : State) : (modSlot k f s).rateCancel = s.rateCancel := rfl
@[simp] theorem modSlot_commitAt (k : Nat) (f : SlotSt → SlotSt) (s : State) : (modSlot k f s).commitAt = s.commitAt := rfl
@[simp] theorem modSlot_batches (k : Nat) (f : SlotSt → SlotSt) (s : State) : (modSlot k f s).batches = s.batches := rfl
@[simp] theorem modSlot_avails (k : Nat) (f : SlotSt → SlotSt) (s : State) : (modSlot k f s).avails = s.avails := rfl
@[simp] theorem modSlot_clk (k : Nat) (f : SlotSt → SlotSt) (s : State) : (modSlot k f s).clk = s.clk := rfl
@[simp] theorem modSlot_servo (k : Nat) (f : SlotSt → SlotSt) (s : State) : (modSlot k f s).servo = s.servo := rfl
@[simp] theorem modSlot_lanes (k : Nat) (f : SlotSt → SlotSt) (s : State) : (modSlot k f s).lanes = s.lanes := rfl
@[simp] theorem modSlot_fwJob (k : Nat) (f : SlotSt → SlotSt) (s : State) : (modSlot k f s).fwJob = s.fwJob := rfl
@[simp] theorem modSlot_meas (k : Nat) (f : SlotSt → SlotSt) (s : State) : (modSlot k f s).meas = s.meas := rfl
@[simp] theorem modSlot_chains (k : Nat) (f : SlotSt → SlotSt) (s : State) : (modSlot k f s).chains = s.chains := rfl
@[simp] theorem modSlot_loopDone (k : Nat) (f : SlotSt → SlotSt) (s : State) : (modSlot k f s).loopDone = s.loopDone := rfl
@[simp] theorem modSlot_loopSeen (k : Nat) (f : SlotSt → SlotSt) (s : State) : (modSlot k f s).loopSeen = s.loopSeen := rfl
@[simp] theorem modSlot_mbx (k : Nat) (f : SlotSt → SlotSt) (s : State) : (modSlot k f s).mbx = s.mbx := rfl
@[simp] theorem modSlot_osc (k : Nat) (f : SlotSt → SlotSt) (s : State) : (modSlot k f s).osc = s.osc := rfl
@[simp] theorem modSlot_arms (k : Nat) (f : SlotSt → SlotSt) (s : State) : (modSlot k f s).arms = s.arms := rfl
@[simp] theorem modSlot_run (k : Nat) (f : SlotSt → SlotSt) (s : State) : (modSlot k f s).run = s.run := rfl
@[simp] theorem modSlot_waitIn (k : Nat) (f : SlotSt → SlotSt) (s : State) : (modSlot k f s).waitIn = s.waitIn := rfl
@[simp] theorem modSlot_ready (k : Nat) (f : SlotSt → SlotSt) (s : State) : (modSlot k f s).ready = s.ready := rfl
@[simp] theorem modSlot_prot (k : Nat) (f : SlotSt → SlotSt) (s : State) : (modSlot k f s).prot = s.prot := rfl
@[simp] theorem modSlot_dpx (k : Nat) (f : SlotSt → SlotSt) (s : State) : (modSlot k f s).dpx = s.dpx := rfl
@[simp] theorem modSlot_fcl (k : Nat) (f : SlotSt → SlotSt) (s : State) : (modSlot k f s).fcl = s.fcl := rfl
@[simp] theorem modSlot_bench (k : Nat) (f : SlotSt → SlotSt) (s : State) : (modSlot k f s).bench = s.bench := rfl
@[simp] theorem modSlot_fmn (k : Nat) (f : SlotSt → SlotSt) (s : State) : (modSlot k f s).fmn = s.fmn := rfl
@[simp] theorem modSlot_ledger (k : Nat) (f : SlotSt → SlotSt) (s : State) : (modSlot k f s).ledger = s.ledger := rfl
@[simp] theorem modSlot_ctxs (k : Nat) (f : SlotSt → SlotSt) (s : State) : (modSlot k f s).ctxs = s.ctxs := rfl
@[simp] theorem modSlot_accepted (k : Nat) (f : SlotSt → SlotSt) (s : State) : (modSlot k f s).accepted = s.accepted := rfl
@[simp] theorem modSlot_accCount (k : Nat) (f : SlotSt → SlotSt) (s : State) : (modSlot k f s).accCount = s.accCount := rfl
@[simp] theorem modSlot_net (k : Nat) (f : SlotSt → SlotSt) (s : State) : (modSlot k f s).net = s.net := rfl
@[simp] theorem modSlot_sec (k : Nat) (f : SlotSt → SlotSt) (s : State) : (modSlot k f s).sec = s.sec := rfl
@[simp] theorem modSlot_pwr (k : Nat) (f : SlotSt → SlotSt) (s : State) : (modSlot k f s).pwr = s.pwr := rfl
@[simp] theorem modSlot_pin (k : Nat) (f : SlotSt → SlotSt) (s : State) : (modSlot k f s).pin = s.pin := rfl
@[simp] theorem modSlot_sent (k : Nat) (f : SlotSt → SlotSt) (s : State) : (modSlot k f s).sent = s.sent := rfl
@[simp] theorem modSlot_freeCount (k : Nat) (f : SlotSt → SlotSt) (s : State) : (modSlot k f s).freeCount = s.freeCount := rfl
@[simp] theorem modSlot_pending (k : Nat) (f : SlotSt → SlotSt) (s : State) : (modSlot k f s).pending = s.pending := rfl

/-! `modMeas` changes `meas`. -/

@[simp] theorem modMeas_time (f : MeasSt → MeasSt) (s : State) : (modMeas f s).time = s.time := rfl
@[simp] theorem modMeas_tick (f : MeasSt → MeasSt) (s : State) : (modMeas f s).tick = s.tick := rfl
@[simp] theorem modMeas_markAt (f : MeasSt → MeasSt) (s : State) : (modMeas f s).markAt = s.markAt := rfl
@[simp] theorem modMeas_dev (f : MeasSt → MeasSt) (s : State) : (modMeas f s).dev = s.dev := rfl
@[simp] theorem modMeas_conv (f : MeasSt → MeasSt) (s : State) : (modMeas f s).conv = s.conv := rfl
@[simp] theorem modMeas_role (f : MeasSt → MeasSt) (s : State) : (modMeas f s).role = s.role := rfl
@[simp] theorem modMeas_watch (f : MeasSt → MeasSt) (s : State) : (modMeas f s).watch = s.watch := rfl
@[simp] theorem modMeas_lanesOn (f : MeasSt → MeasSt) (s : State) : (modMeas f s).lanesOn = s.lanesOn := rfl
@[simp] theorem modMeas_litAt (f : MeasSt → MeasSt) (s : State) : (modMeas f s).litAt = s.litAt := rfl
@[simp] theorem modMeas_freeze (f : MeasSt → MeasSt) (s : State) : (modMeas f s).freeze = s.freeze := rfl
@[simp] theorem modMeas_frozen (f : MeasSt → MeasSt) (s : State) : (modMeas f s).frozen = s.frozen := rfl
@[simp] theorem modMeas_suppress (f : MeasSt → MeasSt) (s : State) : (modMeas f s).suppress = s.suppress := rfl
@[simp] theorem modMeas_sentWin (f : MeasSt → MeasSt) (s : State) : (modMeas f s).sentWin = s.sentWin := rfl
@[simp] theorem modMeas_closeDone (f : MeasSt → MeasSt) (s : State) : (modMeas f s).closeDone = s.closeDone := rfl
@[simp] theorem modMeas_frameEnd (f : MeasSt → MeasSt) (s : State) : (modMeas f s).frameEnd = s.frameEnd := rfl
@[simp] theorem modMeas_misses (f : MeasSt → MeasSt) (s : State) : (modMeas f s).misses = s.misses := rfl
@[simp] theorem modMeas_missDone (f : MeasSt → MeasSt) (s : State) : (modMeas f s).missDone = s.missDone := rfl
@[simp] theorem modMeas_shedding (f : MeasSt → MeasSt) (s : State) : (modMeas f s).shedding = s.shedding := rfl
@[simp] theorem modMeas_numChange (f : MeasSt → MeasSt) (s : State) : (modMeas f s).numChange = s.numChange := rfl
@[simp] theorem modMeas_regs (f : MeasSt → MeasSt) (s : State) : (modMeas f s).regs = s.regs := rfl
@[simp] theorem modMeas_tabs (f : MeasSt → MeasSt) (s : State) : (modMeas f s).tabs = s.tabs := rfl
@[simp] theorem modMeas_cells (f : MeasSt → MeasSt) (s : State) : (modMeas f s).cells = s.cells := rfl
@[simp] theorem modMeas_stWrites (f : MeasSt → MeasSt) (s : State) : (modMeas f s).stWrites = s.stWrites := rfl
@[simp] theorem modMeas_rateCancel (f : MeasSt → MeasSt) (s : State) : (modMeas f s).rateCancel = s.rateCancel := rfl
@[simp] theorem modMeas_commitAt (f : MeasSt → MeasSt) (s : State) : (modMeas f s).commitAt = s.commitAt := rfl
@[simp] theorem modMeas_batches (f : MeasSt → MeasSt) (s : State) : (modMeas f s).batches = s.batches := rfl
@[simp] theorem modMeas_avails (f : MeasSt → MeasSt) (s : State) : (modMeas f s).avails = s.avails := rfl
@[simp] theorem modMeas_clk (f : MeasSt → MeasSt) (s : State) : (modMeas f s).clk = s.clk := rfl
@[simp] theorem modMeas_servo (f : MeasSt → MeasSt) (s : State) : (modMeas f s).servo = s.servo := rfl
@[simp] theorem modMeas_lanes (f : MeasSt → MeasSt) (s : State) : (modMeas f s).lanes = s.lanes := rfl
@[simp] theorem modMeas_fwJob (f : MeasSt → MeasSt) (s : State) : (modMeas f s).fwJob = s.fwJob := rfl
@[simp] theorem modMeas_chains (f : MeasSt → MeasSt) (s : State) : (modMeas f s).chains = s.chains := rfl
@[simp] theorem modMeas_slots (f : MeasSt → MeasSt) (s : State) : (modMeas f s).slots = s.slots := rfl
@[simp] theorem modMeas_loopDone (f : MeasSt → MeasSt) (s : State) : (modMeas f s).loopDone = s.loopDone := rfl
@[simp] theorem modMeas_loopSeen (f : MeasSt → MeasSt) (s : State) : (modMeas f s).loopSeen = s.loopSeen := rfl
@[simp] theorem modMeas_mbx (f : MeasSt → MeasSt) (s : State) : (modMeas f s).mbx = s.mbx := rfl
@[simp] theorem modMeas_osc (f : MeasSt → MeasSt) (s : State) : (modMeas f s).osc = s.osc := rfl
@[simp] theorem modMeas_arms (f : MeasSt → MeasSt) (s : State) : (modMeas f s).arms = s.arms := rfl
@[simp] theorem modMeas_run (f : MeasSt → MeasSt) (s : State) : (modMeas f s).run = s.run := rfl
@[simp] theorem modMeas_waitIn (f : MeasSt → MeasSt) (s : State) : (modMeas f s).waitIn = s.waitIn := rfl
@[simp] theorem modMeas_ready (f : MeasSt → MeasSt) (s : State) : (modMeas f s).ready = s.ready := rfl
@[simp] theorem modMeas_prot (f : MeasSt → MeasSt) (s : State) : (modMeas f s).prot = s.prot := rfl
@[simp] theorem modMeas_dpx (f : MeasSt → MeasSt) (s : State) : (modMeas f s).dpx = s.dpx := rfl
@[simp] theorem modMeas_fcl (f : MeasSt → MeasSt) (s : State) : (modMeas f s).fcl = s.fcl := rfl
@[simp] theorem modMeas_bench (f : MeasSt → MeasSt) (s : State) : (modMeas f s).bench = s.bench := rfl
@[simp] theorem modMeas_fmn (f : MeasSt → MeasSt) (s : State) : (modMeas f s).fmn = s.fmn := rfl
@[simp] theorem modMeas_ledger (f : MeasSt → MeasSt) (s : State) : (modMeas f s).ledger = s.ledger := rfl
@[simp] theorem modMeas_ctxs (f : MeasSt → MeasSt) (s : State) : (modMeas f s).ctxs = s.ctxs := rfl
@[simp] theorem modMeas_accepted (f : MeasSt → MeasSt) (s : State) : (modMeas f s).accepted = s.accepted := rfl
@[simp] theorem modMeas_accCount (f : MeasSt → MeasSt) (s : State) : (modMeas f s).accCount = s.accCount := rfl
@[simp] theorem modMeas_net (f : MeasSt → MeasSt) (s : State) : (modMeas f s).net = s.net := rfl
@[simp] theorem modMeas_sec (f : MeasSt → MeasSt) (s : State) : (modMeas f s).sec = s.sec := rfl
@[simp] theorem modMeas_pwr (f : MeasSt → MeasSt) (s : State) : (modMeas f s).pwr = s.pwr := rfl
@[simp] theorem modMeas_pin (f : MeasSt → MeasSt) (s : State) : (modMeas f s).pin = s.pin := rfl
@[simp] theorem modMeas_sent (f : MeasSt → MeasSt) (s : State) : (modMeas f s).sent = s.sent := rfl
@[simp] theorem modMeas_freeCount (f : MeasSt → MeasSt) (s : State) : (modMeas f s).freeCount = s.freeCount := rfl
@[simp] theorem modMeas_pending (f : MeasSt → MeasSt) (s : State) : (modMeas f s).pending = s.pending := rfl

/-! `setOsc` changes `osc`. -/

@[simp] theorem setOsc_time (d : Nat) (x : OscSt) (s : State) : (setOsc d x s).time = s.time := rfl
@[simp] theorem setOsc_tick (d : Nat) (x : OscSt) (s : State) : (setOsc d x s).tick = s.tick := rfl
@[simp] theorem setOsc_markAt (d : Nat) (x : OscSt) (s : State) : (setOsc d x s).markAt = s.markAt := rfl
@[simp] theorem setOsc_dev (d : Nat) (x : OscSt) (s : State) : (setOsc d x s).dev = s.dev := rfl
@[simp] theorem setOsc_conv (d : Nat) (x : OscSt) (s : State) : (setOsc d x s).conv = s.conv := rfl
@[simp] theorem setOsc_role (d : Nat) (x : OscSt) (s : State) : (setOsc d x s).role = s.role := rfl
@[simp] theorem setOsc_watch (d : Nat) (x : OscSt) (s : State) : (setOsc d x s).watch = s.watch := rfl
@[simp] theorem setOsc_lanesOn (d : Nat) (x : OscSt) (s : State) : (setOsc d x s).lanesOn = s.lanesOn := rfl
@[simp] theorem setOsc_litAt (d : Nat) (x : OscSt) (s : State) : (setOsc d x s).litAt = s.litAt := rfl
@[simp] theorem setOsc_freeze (d : Nat) (x : OscSt) (s : State) : (setOsc d x s).freeze = s.freeze := rfl
@[simp] theorem setOsc_frozen (d : Nat) (x : OscSt) (s : State) : (setOsc d x s).frozen = s.frozen := rfl
@[simp] theorem setOsc_suppress (d : Nat) (x : OscSt) (s : State) : (setOsc d x s).suppress = s.suppress := rfl
@[simp] theorem setOsc_sentWin (d : Nat) (x : OscSt) (s : State) : (setOsc d x s).sentWin = s.sentWin := rfl
@[simp] theorem setOsc_closeDone (d : Nat) (x : OscSt) (s : State) : (setOsc d x s).closeDone = s.closeDone := rfl
@[simp] theorem setOsc_frameEnd (d : Nat) (x : OscSt) (s : State) : (setOsc d x s).frameEnd = s.frameEnd := rfl
@[simp] theorem setOsc_misses (d : Nat) (x : OscSt) (s : State) : (setOsc d x s).misses = s.misses := rfl
@[simp] theorem setOsc_missDone (d : Nat) (x : OscSt) (s : State) : (setOsc d x s).missDone = s.missDone := rfl
@[simp] theorem setOsc_shedding (d : Nat) (x : OscSt) (s : State) : (setOsc d x s).shedding = s.shedding := rfl
@[simp] theorem setOsc_numChange (d : Nat) (x : OscSt) (s : State) : (setOsc d x s).numChange = s.numChange := rfl
@[simp] theorem setOsc_regs (d : Nat) (x : OscSt) (s : State) : (setOsc d x s).regs = s.regs := rfl
@[simp] theorem setOsc_tabs (d : Nat) (x : OscSt) (s : State) : (setOsc d x s).tabs = s.tabs := rfl
@[simp] theorem setOsc_cells (d : Nat) (x : OscSt) (s : State) : (setOsc d x s).cells = s.cells := rfl
@[simp] theorem setOsc_stWrites (d : Nat) (x : OscSt) (s : State) : (setOsc d x s).stWrites = s.stWrites := rfl
@[simp] theorem setOsc_rateCancel (d : Nat) (x : OscSt) (s : State) : (setOsc d x s).rateCancel = s.rateCancel := rfl
@[simp] theorem setOsc_commitAt (d : Nat) (x : OscSt) (s : State) : (setOsc d x s).commitAt = s.commitAt := rfl
@[simp] theorem setOsc_batches (d : Nat) (x : OscSt) (s : State) : (setOsc d x s).batches = s.batches := rfl
@[simp] theorem setOsc_avails (d : Nat) (x : OscSt) (s : State) : (setOsc d x s).avails = s.avails := rfl
@[simp] theorem setOsc_clk (d : Nat) (x : OscSt) (s : State) : (setOsc d x s).clk = s.clk := rfl
@[simp] theorem setOsc_servo (d : Nat) (x : OscSt) (s : State) : (setOsc d x s).servo = s.servo := rfl
@[simp] theorem setOsc_lanes (d : Nat) (x : OscSt) (s : State) : (setOsc d x s).lanes = s.lanes := rfl
@[simp] theorem setOsc_fwJob (d : Nat) (x : OscSt) (s : State) : (setOsc d x s).fwJob = s.fwJob := rfl
@[simp] theorem setOsc_meas (d : Nat) (x : OscSt) (s : State) : (setOsc d x s).meas = s.meas := rfl
@[simp] theorem setOsc_chains (d : Nat) (x : OscSt) (s : State) : (setOsc d x s).chains = s.chains := rfl
@[simp] theorem setOsc_slots (d : Nat) (x : OscSt) (s : State) : (setOsc d x s).slots = s.slots := rfl
@[simp] theorem setOsc_loopDone (d : Nat) (x : OscSt) (s : State) : (setOsc d x s).loopDone = s.loopDone := rfl
@[simp] theorem setOsc_loopSeen (d : Nat) (x : OscSt) (s : State) : (setOsc d x s).loopSeen = s.loopSeen := rfl
@[simp] theorem setOsc_mbx (d : Nat) (x : OscSt) (s : State) : (setOsc d x s).mbx = s.mbx := rfl
@[simp] theorem setOsc_arms (d : Nat) (x : OscSt) (s : State) : (setOsc d x s).arms = s.arms := rfl
@[simp] theorem setOsc_run (d : Nat) (x : OscSt) (s : State) : (setOsc d x s).run = s.run := rfl
@[simp] theorem setOsc_waitIn (d : Nat) (x : OscSt) (s : State) : (setOsc d x s).waitIn = s.waitIn := rfl
@[simp] theorem setOsc_ready (d : Nat) (x : OscSt) (s : State) : (setOsc d x s).ready = s.ready := rfl
@[simp] theorem setOsc_prot (d : Nat) (x : OscSt) (s : State) : (setOsc d x s).prot = s.prot := rfl
@[simp] theorem setOsc_dpx (d : Nat) (x : OscSt) (s : State) : (setOsc d x s).dpx = s.dpx := rfl
@[simp] theorem setOsc_fcl (d : Nat) (x : OscSt) (s : State) : (setOsc d x s).fcl = s.fcl := rfl
@[simp] theorem setOsc_bench (d : Nat) (x : OscSt) (s : State) : (setOsc d x s).bench = s.bench := rfl
@[simp] theorem setOsc_fmn (d : Nat) (x : OscSt) (s : State) : (setOsc d x s).fmn = s.fmn := rfl
@[simp] theorem setOsc_ledger (d : Nat) (x : OscSt) (s : State) : (setOsc d x s).ledger = s.ledger := rfl
@[simp] theorem setOsc_ctxs (d : Nat) (x : OscSt) (s : State) : (setOsc d x s).ctxs = s.ctxs := rfl
@[simp] theorem setOsc_accepted (d : Nat) (x : OscSt) (s : State) : (setOsc d x s).accepted = s.accepted := rfl
@[simp] theorem setOsc_accCount (d : Nat) (x : OscSt) (s : State) : (setOsc d x s).accCount = s.accCount := rfl
@[simp] theorem setOsc_net (d : Nat) (x : OscSt) (s : State) : (setOsc d x s).net = s.net := rfl
@[simp] theorem setOsc_sec (d : Nat) (x : OscSt) (s : State) : (setOsc d x s).sec = s.sec := rfl
@[simp] theorem setOsc_pwr (d : Nat) (x : OscSt) (s : State) : (setOsc d x s).pwr = s.pwr := rfl
@[simp] theorem setOsc_pin (d : Nat) (x : OscSt) (s : State) : (setOsc d x s).pin = s.pin := rfl
@[simp] theorem setOsc_sent (d : Nat) (x : OscSt) (s : State) : (setOsc d x s).sent = s.sent := rfl
@[simp] theorem setOsc_freeCount (d : Nat) (x : OscSt) (s : State) : (setOsc d x s).freeCount = s.freeCount := rfl
@[simp] theorem setOsc_pending (d : Nat) (x : OscSt) (s : State) : (setOsc d x s).pending = s.pending := rfl

/-! What they change. -/

@[simp] theorem cell_modCell_same (a : Nat) (f : Cell → Cell) (s : State) : cell (modCell a f s) a = f (cell s a) := by
  simp [cell, cellIn, modCell]
theorem cell_modCell_ne (f : Cell → Cell) (s : State) {a b : Nat} (h : b ≠ a) : cell (modCell a f s) b = cell s b := by
  simp [cell, cellIn, modCell, kget_kmod_ne _ _ _ h]
@[simp] theorem emit_sent (e : Emission) (s : State) : (emit e s).sent = s.sent ++ [e] := rfl
@[simp] theorem drawFree_freeCount (s : State) : (drawFree s).2.freeCount = s.freeCount + 1 := rfl
@[simp] theorem task_modTask_same (t : Nat) (f : TaskSt → TaskSt) (s : State) : task (modTask t f s) t = f (task s t) := by
  simp [task, modTask]
@[simp] theorem fctx_modCtx_same (c : Nat) (f : FmnCtx → FmnCtx) (s : State) : fctx (modCtx c f s) c = f (fctx s c) := by
  simp [fctx, modCtx]
@[simp] theorem chain_modChain_same (c : Nat) (f : ChainSt → ChainSt) (s : State) : chain (modChain c f s) c = f (chain s c) := by
  simp [chain, modChain]
@[simp] theorem hctx_modHctx_same (n : Nat) (f : HostCtx → HostCtx) (s : State) : hctx (modHctx n f s) n = f (hctx s n) := by
  simp [hctx, modHctx]
@[simp] theorem lane_modLane_same (l : Nat) (f : LaneSt → LaneSt) (s : State) : lane (modLane l f s) l = f (lane s l) := by
  simp [lane, modLane]
@[simp] theorem modDpx_dpx (f : DuplexSt → DuplexSt) (s : State) : (modDpx f s).dpx = f s.dpx := rfl
@[simp] theorem modLedger_ledger (f : LedgerSt → LedgerSt) (s : State) : (modLedger f s).ledger = f s.ledger := rfl
@[simp] theorem modMeas_meas (f : MeasSt → MeasSt) (s : State) : (modMeas f s).meas = f s.meas := rfl

end Sys2Proof.Machine
end

