-- ==== Sys2Proof/Laws/Outputs.lean ====
section
/-! SUPPORT. De-energising the safety outputs, and what a failstop leaves (R353, R412). -/

namespace Sys2Proof.Machine

set_option Elab.async false

theorem sout_congr {s t : State} (h : t.prot = s.prot) (k : Nat) : sout t k = sout s k := by unfold sout; rw [h]

theorem sout_setSout_same (k : Nat) (o : SafeOut) (s : State) : sout (setSout k o s) k = o := kget_kset_same _ _ _ _

theorem sout_setSout_ne {k j : Nat} (h : j ≠ k) (o : SafeOut) (s : State) : sout (setSout k o s) j = sout s j := kget_kset_ne _ _ _ _ h

/-- The feedback moves the feedback state alone (R355). -/
theorem fbSettle_energised (inv : Bool) (t : Nat) (o : SafeOut) : (fbSettle inv t o).energised = o.energised := by
  unfold fbSettle
  split
  · split <;> rfl
  · split <;> rfl
  · rfl

/-- The output is off after it is de-energised. -/
theorem deEnergise_off (k : Nat) (s : State) : (sout (deEnergise k s) k).energised = false := by
  unfold deEnergise
  dsimp only
  split
  · rename_i h
    have e : (sout s k).energised = false := by simpa using h
    exact e
  · rw [sout_setSout_same, fbSettle_energised]

/-- Every other output keeps its state. -/
theorem deEnergise_other {k j : Nat} (h : j ≠ k) (s : State) : sout (deEnergise k s) j = sout s j := by
  unfold deEnergise
  dsimp only
  split
  · rfl
  · rw [sout_setSout_ne h]

/-- An output that is off stays off. -/
theorem deEnergise_keeps_off (k j : Nat) (s : State) (h : (sout s j).energised = false) : (sout (deEnergise k s) j).energised = false := by
  by_cases e : j = k
  · subst e; exact deEnergise_off _ s
  · rw [deEnergise_other e]; exact h

/-- No output is energised afterwards (R353). -/
theorem deEnergiseAll_off (s : State) : OutputsOff (deEnergiseAll s) := by
  intro k hk
  have e : deEnergiseAll s = deEnergise 3 (deEnergise 2 (deEnergise 1 (deEnergise 0 s))) := rfl
  rw [e]
  have c : k = 0 ∨ k = 1 ∨ k = 2 ∨ k = 3 := by omega
  rcases c with rfl | rfl | rfl | rfl
  · exact deEnergise_keeps_off _ _ _ (deEnergise_keeps_off _ _ _ (deEnergise_keeps_off _ _ _ (deEnergise_off _ _)))
  · exact deEnergise_keeps_off _ _ _ (deEnergise_keeps_off _ _ _ (deEnergise_off _ _))
  · exact deEnergise_keeps_off _ _ _ (deEnergise_off _ _)
  · exact deEnergise_off _ _

/-- Showing the lanes dark changes registers alone. -/
theorem showDark_keeps {β : Type} (g : State → β) (h : ∀ f b s, g (wrB f b s) = g s) (s : State) : g (showDark s) = g s :=
  forUpto_keep g _ _ _ fun s l => by
    rw [h]
    split
    · rw [h]
    · rfl

@[simp] theorem showDark_dev (s : State) : (showDark s).dev = s.dev := showDark_keeps (·.dev) wrB_dev s
@[simp] theorem showDark_role (s : State) : (showDark s).role = s.role := showDark_keeps (·.role) wrB_role s
@[simp] theorem showDark_lanesOn (s : State) : (showDark s).lanesOn = s.lanesOn := showDark_keeps (·.lanesOn) wrB_lanesOn s
@[simp] theorem showDark_pin (s : State) : (showDark s).pin = s.pin := showDark_keeps (·.pin) wrB_pin s
@[simp] theorem showDark_prot (s : State) : (showDark s).prot = s.prot := showDark_keeps (·.prot) wrB_prot s

/-- What stopping the device leaves. -/
theorem stopNow_leaves (s : State) : (stopNow s).dev = .failstop ∧ (stopNow s).role = .failstop ∧ (stopNow s).lanesOn = false ∧
    (stopNow s).pin.failN = false ∧ (stopNow s).prot = s.prot := ⟨rfl, rfl, rfl, rfl, rfl⟩

/-- A failstop leaves the device in FAILSTOP, FAIL_N low, the lasers dark and every output off (R412). -/
theorem failstop_leaves (cause : Nat) (s : State) : (failstop cause s).dev = .failstop ∧ (failstop cause s).role = .failstop ∧
    (failstop cause s).lanesOn = false ∧ (failstop cause s).pin.failN = false ∧ OutputsOff (failstop cause s) := by
  unfold failstop
  have off := deEnergiseAll_off s
  generalize deEnergiseAll s = u at off ⊢
  obtain ⟨d, r, l, f, p⟩ := stopNow_leaves u
  generalize stopNow u = v at d r l f p ⊢
  refine ⟨?_, ?_, ?_, ?_, fun k h => ?_⟩
  · rw [wr_dev, wr_dev, showDark_dev, d]
  · rw [wr_role, wr_role, showDark_role, r]
  · rw [wr_lanesOn, wr_lanesOn, showDark_lanesOn, l]
  · rw [wr_pin, wr_pin, showDark_pin, f]
  · rw [sout_congr (k := k) (show _ = u.prot by rw [wr_prot, wr_prot, showDark_prot, p])]
    exact off k h

end Sys2Proof.Machine
end

