-- ==== Sys2Proof/Laws/PerInstr.lean ====
section
/-! SUPPORT. What being well formed asks of each command, one lemma per constructor. -/

namespace Sys2Proof.Laws.Shape

set_option Elab.async false

open Sys2Proof Sys2Proof.Machine

/-- A command is well formed exactly where a descriptor it brings has 64 bytes (R493). -/
def Statement (i : Instr) : Prop := i.wellFormed = true ↔ ∀ n b x, i = .descriptorFetch n b x → b.length = 64

theorem tickMark : Statement .tickMark := by
  simp [Statement, Instr.wellFormed]
theorem tickMarkNotSent : Statement .tickMarkNotSent := by
  simp [Statement, Instr.wellFormed]
theorem mailboxStale (m : Fin 64) : Statement (.mailboxStale m) := by
  simp [Statement, Instr.wellFormed]
theorem svLoss (stream : Fin 16) : Statement (.svLoss stream) := by
  simp [Statement, Instr.wellFormed]
theorem extraHeartbeat : Statement .extraHeartbeat := by
  simp [Statement, Instr.wellFormed]
theorem switchMark : Statement .switchMark := by
  simp [Statement, Instr.wellFormed]
theorem watchMarkAfterLaneStart : Statement .watchMarkAfterLaneStart := by
  simp [Statement, Instr.wellFormed]
theorem upstreamWindowClose : Statement .upstreamWindowClose := by
  simp [Statement, Instr.wellFormed]
theorem cellMiss (cell : CellAddr) : Statement (.cellMiss cell) := by
  simp [Statement, Instr.wellFormed]
theorem missingCellRecovered (cell : CellAddr) : Statement (.missingCellRecovered cell) := by
  simp [Statement, Instr.wellFormed]
theorem ledgerSampleLost (channelStream : Bool) : Statement (.ledgerSampleLost channelStream) := by
  simp [Statement, Instr.wellFormed]
theorem refreshEnd (cell : CellAddr) : Statement (.refreshEnd cell) := by
  simp [Statement, Instr.wellFormed]
theorem computePhaseEnd (sym : Nat) : Statement (.computePhaseEnd sym) := by
  simp [Statement, Instr.wellFormed]
theorem launchPoint : Statement .launchPoint := by
  simp [Statement, Instr.wellFormed]
theorem slipLimitExpiry : Statement .slipLimitExpiry := by
  simp [Statement, Instr.wellFormed]
theorem missLimitReached : Statement .missLimitReached := by
  simp [Statement, Instr.wellFormed]
theorem burstReceived (lane : LaneIx) (slot : Fin 128) (burst : Burst) : Statement (.burstReceived lane slot burst) := by
  simp [Statement, Instr.wellFormed]
theorem rangingComplete (cell : CellAddr) : Statement (.rangingComplete cell) := by
  simp [Statement, Instr.wellFormed]
theorem confirmFail (cell : CellAddr) : Statement (.confirmFail cell) := by
  simp [Statement, Instr.wellFormed]
theorem trackingUpdate (cell : CellAddr) : Statement (.trackingUpdate cell) := by
  simp [Statement, Instr.wellFormed]
theorem mailboxBusyTimeout (lane : LaneIx) (tag : Byte) : Statement (.mailboxBusyTimeout lane tag) := by
  simp [Statement, Instr.wellFormed]
theorem fwDistributionStep : Statement .fwDistributionStep := by
  simp [Statement, Instr.wellFormed]
theorem laneLos (lane : LaneIx) : Statement (.laneLos lane) := by
  simp [Statement, Instr.wellFormed]
theorem laneCode (lane : Fin 69) : Statement (.laneCode lane) := by
  simp [Statement, Instr.wellFormed]
theorem echoEnd (lane : LaneIx) : Statement (.echoEnd lane) := by
  simp [Statement, Instr.wellFormed]
theorem blockSetRequest : Statement .blockSetRequest := by
  simp [Statement, Instr.wellFormed]
theorem fastPathOutput (chain : Fin 40) (bits : List Bool) : Statement (.fastPathOutput chain bits) := by
  simp [Statement, Instr.wellFormed]
theorem finePathOutput (chain : Fin 40) (bits : List Bool) : Statement (.finePathOutput chain bits) := by
  simp [Statement, Instr.wellFormed]
theorem nomeas (comparator : Fin 14) : Statement (.nomeas comparator) := by
  simp [Statement, Instr.wellFormed]
theorem sdStuck (channel : Fin 24) : Statement (.sdStuck channel) := by
  simp [Statement, Instr.wellFormed]
theorem sdStuckEnd (channel : Fin 24) : Statement (.sdStuckEnd channel) := by
  simp [Statement, Instr.wellFormed]
theorem sarTickTrigger : Statement .sarTickTrigger := by
  simp [Statement, Instr.wellFormed]
theorem sarScanEnd (monitors : SarMonitors) : Statement (.sarScanEnd monitors) := by
  simp [Statement, Instr.wellFormed]
theorem sarResultReady (channel : Fin 23) (raw : BitVec 16) : Statement (.sarResultReady channel raw) := by
  simp [Statement, Instr.wellFormed]
theorem calibrationPointDone : Statement .calibrationPointDone := by
  simp [Statement, Instr.wellFormed]
theorem prpFrameReceived (port : Fin 4) (frame : NetFrame) : Statement (.prpFrameReceived port frame) := by
  simp [Statement, Instr.wellFormed]
theorem prpSupervisionSend (pair : Fin 2) : Statement (.prpSupervisionSend pair) := by
  simp [Statement, Instr.wellFormed]
theorem portDown (port : Fin 4) : Statement (.portDown port) := by
  simp [Statement, Instr.wellFormed]
theorem portUp (port : Fin 4) : Statement (.portUp port) := by
  simp [Statement, Instr.wellFormed]
theorem ptpInterval (port : Fin 4) (kind : PtpKind) (egress : Int) : Statement (.ptpInterval port kind egress) := by
  simp [Statement, Instr.wellFormed]
theorem announceTimeout (port : Fin 4) : Statement (.announceTimeout port) := by
  simp [Statement, Instr.wellFormed]
theorem ppsLoss : Statement .ppsLoss := by
  simp [Statement, Instr.wellFormed]
theorem gooseTtlExpiry (entry : Fin 32) : Statement (.gooseTtlExpiry entry) := by
  simp [Statement, Instr.wellFormed]
theorem gooseRepeat (entry : Fin 32) : Statement (.gooseRepeat entry) := by
  simp [Statement, Instr.wellFormed]
theorem stationDeadline (station : Fin 32) : Statement (.stationDeadline station) := by
  simp [Statement, Instr.wellFormed]
theorem telegramPartnerTimeout (conn : Fin 8) : Statement (.telegramPartnerTimeout conn) := by
  simp [Statement, Instr.wellFormed]
theorem telegramWdtTimeout (conn : Fin 8) : Statement (.telegramWdtTimeout conn) := by
  simp [Statement, Instr.wellFormed]
theorem telegramPortDown (conn : Fin 8) (port : Fin 2) : Statement (.telegramPortDown conn port) := by
  simp [Statement, Instr.wellFormed]
theorem safetyInputFiltered (input : Fin 8) (channelB : Bool) (level : Bool) : Statement (.safetyInputFiltered input channelB level) := by
  simp [Statement, Instr.wellFormed]
theorem safeInDiscrepancy (input : Fin 8) : Statement (.safeInDiscrepancy input) := by
  simp [Statement, Instr.wellFormed]
theorem testPulse (output : Fin 4) (fellA returnedA fellB returnedB : Bool) :
    Statement (.testPulse output fellA returnedA fellB returnedB) := by
  simp [Statement, Instr.wellFormed]
theorem feedbackChange (output : Fin 4) (fbA fbB : Bool) : Statement (.feedbackChange output fbA fbB) := by
  simp [Statement, Instr.wellFormed]
theorem feedbackTimerExpiry (output : Fin 4) : Statement (.feedbackTimerExpiry output) := by
  simp [Statement, Instr.wellFormed]
theorem safetyResetTimeout : Statement .safetyResetTimeout := by
  simp [Statement, Instr.wellFormed]
theorem prtResetWrite (value : Word) : Statement (.prtResetWrite value) := by
  simp [Statement, Instr.wellFormed]
theorem pllLockDeclared (aOk : Bool) (refB : RefSeen) (pll : PllSeen) : Statement (.pllLockDeclared aOk refB pll) := by
  simp [Statement, Instr.wellFormed]
theorem pllUnlock (pll : PllSeen) : Statement (.pllUnlock pll) := by
  simp [Statement, Instr.wellFormed]
theorem lanesStopOnUnlock : Statement .lanesStopOnUnlock := by
  simp [Statement, Instr.wellFormed]
theorem ldmismatch : Statement .ldmismatch := by
  simp [Statement, Instr.wellFormed]
theorem pllRelock : Statement .pllRelock := by
  simp [Statement, Instr.wellFormed]
theorem refclkALoss (bVsA : BitVec 24) : Statement (.refclkALoss bVsA) := by
  simp [Statement, Instr.wellFormed]
theorem refclkBLoss : Statement .refclkBLoss := by
  simp [Statement, Instr.wellFormed]
theorem refclkARevert (bVsA : BitVec 24) : Statement (.refclkARevert bVsA) := by
  simp [Statement, Instr.wellFormed]
theorem bypassOnOscillator : Statement .bypassOnOscillator := by
  simp [Statement, Instr.wellFormed]
theorem lanePllUnlock (pll : Fin 4) : Statement (.lanePllUnlock pll) := by
  simp [Statement, Instr.wellFormed]
theorem portPllUnlock : Statement .portPllUnlock := by
  simp [Statement, Instr.wellFormed]
theorem syncInEdge : Statement .syncInEdge := by
  simp [Statement, Instr.wellFormed]
theorem timeTriggerFire (unit : Fin 16) : Statement (.timeTriggerFire unit) := by
  simp [Statement, Instr.wellFormed]
theorem grantRise : Statement .grantRise := by
  simp [Statement, Instr.wellFormed]
theorem grantFall : Statement .grantFall := by
  simp [Statement, Instr.wellFormed]
theorem grantLost : Statement .grantLost := by
  simp [Statement, Instr.wellFormed]
theorem grantGlitch : Statement .grantGlitch := by
  simp [Statement, Instr.wellFormed]
theorem refereeStatusFrame (frame : RefFrame) : Statement (.refereeStatusFrame frame) := by
  simp [Statement, Instr.wellFormed]
theorem refereeLaneTimeout : Statement .refereeLaneTimeout := by
  simp [Statement, Instr.wellFormed]
theorem refereeDisagree : Statement .refereeDisagree := by
  simp [Statement, Instr.wellFormed]
theorem dovetailSegment (seg : SegmentBits) : Statement (.dovetailSegment seg) := by
  simp [Statement, Instr.wellFormed]
theorem dovetailLinkLost : Statement .dovetailLinkLost := by
  simp [Statement, Instr.wellFormed]
theorem plannedRelease : Statement .plannedRelease := by
  simp [Statement, Instr.wellFormed]
theorem benchCycleEnd (task : Fin 96) (outs : List CycleOut) : Statement (.benchCycleEnd task outs) := by
  simp [Statement, Instr.wellFormed]
theorem benchLockstep (bench : Fin 8) : Statement (.benchLockstep bench) := by
  simp [Statement, Instr.wellFormed]
theorem watchdog (task : Fin 96) : Statement (.watchdog task) := by
  simp [Statement, Instr.wellFormed]
theorem busError (task : Fin 96) (access : BadAccess) : Statement (.busError task access) := by
  simp [Statement, Instr.wellFormed]
theorem journalWriteDone (ok : Bool) : Statement (.journalWriteDone ok) := by
  simp [Statement, Instr.wellFormed]
theorem changeSwap : Statement .changeSwap := by
  simp [Statement, Instr.wellFormed]
theorem changeTimeout : Statement .changeTimeout := by
  simp [Statement, Instr.wellFormed]
theorem waitSatisfied (context : Fin 256) : Statement (.waitSatisfied context) := by
  simp [Statement, Instr.wellFormed]
theorem waitTimeout (context : Fin 256) : Statement (.waitTimeout context) := by
  simp [Statement, Instr.wellFormed]
theorem dispatch (executor : Fin 16) : Statement (.dispatch executor) := by
  simp [Statement, Instr.wellFormed]
theorem preemption (context : Fin 256) : Statement (.preemption context) := by
  simp [Statement, Instr.wellFormed]
theorem serviceQuantumEnd (context : Fin 256) : Statement (.serviceQuantumEnd context) := by
  simp [Statement, Instr.wellFormed]
theorem flowItemRelease (flow : Fin 48) : Statement (.flowItemRelease flow) := by
  simp [Statement, Instr.wellFormed]
theorem eventFlowFull (group : Fin 6) (event : DevEvent) : Statement (.eventFlowFull group event) := by
  simp [Statement, Instr.wellFormed]
theorem foremanStall (flow : Fin 48) : Statement (.foremanStall flow) := by
  simp [Statement, Instr.wellFormed]
theorem shadowEnd : Statement .shadowEnd := by
  simp [Statement, Instr.wellFormed]
theorem supervisorWatchdog : Statement .supervisorWatchdog := by
  simp [Statement, Instr.wellFormed]
theorem supervisorLockstep : Statement .supervisorLockstep := by
  simp [Statement, Instr.wellFormed]
theorem collectorDisagreement : Statement .collectorDisagreement := by
  simp [Statement, Instr.wellFormed]
theorem ledgerTriggerFire (unit : Fin 32) : Statement (.ledgerTriggerFire unit) := by
  simp [Statement, Instr.wellFormed]
theorem holdoffEnd (unit : Fin 32) : Statement (.holdoffEnd unit) := by
  simp [Statement, Instr.wellFormed]
theorem sqTail (ctx : CtxIx) (value : Word) : Statement (.sqTail ctx value) := by
  simp [Statement, Instr.wellFormed]
theorem descriptorFetch (ctx : CtxIx) (bytes body : List Byte) : Statement (.descriptorFetch ctx bytes body) := by
  simp [Statement, Instr.wellFormed]
theorem cqHead (ctx : CtxIx) (value : Word) : Statement (.cqHead ctx value) := by
  simp [Statement, Instr.wellFormed]
theorem completionWrite (ctx : CtxIx) : Statement (.completionWrite ctx) := by
  simp [Statement, Instr.wellFormed]
theorem msixCoalesceTimeout (ctx : CtxIx) (events : Bool) : Statement (.msixCoalesceTimeout ctx events) := by
  simp [Statement, Instr.wellFormed]
theorem hostProtocol (ctx : CtxIx) (reason : Fin 7) (addr : BitVec 64) : Statement (.hostProtocol ctx reason addr) := by
  simp [Statement, Instr.wellFormed]
theorem contextAttach (ctx : CtxIx) (vfEnabled : Bool) : Statement (.contextAttach ctx vfEnabled) := by
  simp [Statement, Instr.wellFormed]
theorem contextDetach (ctx : CtxIx) : Statement (.contextDetach ctx) := by
  simp [Statement, Instr.wellFormed]
theorem drainComplete (ctx : CtxIx) : Statement (.drainComplete ctx) := by
  simp [Statement, Instr.wellFormed]
theorem functionReset (kind : ResetKind) : Statement (.functionReset kind) := by
  simp [Statement, Instr.wellFormed]
theorem nop (ctx : CtxIx) (tag : BitVec 16) : Statement (.nop ctx tag) := by
  simp [Statement, Instr.wellFormed]
theorem stageBatch (ctx : CtxIx) (tag : BitVec 16) : Statement (.stageBatch ctx tag) := by
  simp [Statement, Instr.wellFormed]
theorem batchStagingStep : Statement .batchStagingStep := by
  simp [Statement, Instr.wellFormed]
theorem snapRead (ctx : CtxIx) (tag : BitVec 16) : Statement (.snapRead ctx tag) := by
  simp [Statement, Instr.wellFormed]
theorem ledgerFetch (ctx : CtxIx) (tag : BitVec 16) : Statement (.ledgerFetch ctx tag) := by
  simp [Statement, Instr.wellFormed]
theorem progLoad (ctx : CtxIx) (tag : BitVec 16) : Statement (.progLoad ctx tag) := by
  simp [Statement, Instr.wellFormed]
theorem progStart (ctx : CtxIx) (tag : BitVec 16) : Statement (.progStart ctx tag) := by
  simp [Statement, Instr.wellFormed]
theorem progStop (ctx : CtxIx) (tag : BitVec 16) : Statement (.progStop ctx tag) := by
  simp [Statement, Instr.wellFormed]
theorem progChange (ctx : CtxIx) (tag : BitVec 16) : Statement (.progChange ctx tag) := by
  simp [Statement, Instr.wellFormed]
theorem cellForce (ctx : CtxIx) (tag : BitVec 16) : Statement (.cellForce ctx tag) := by
  simp [Statement, Instr.wellFormed]
theorem cellUnforce (ctx : CtxIx) (tag : BitVec 16) : Statement (.cellUnforce ctx tag) := by
  simp [Statement, Instr.wellFormed]
theorem varForce (ctx : CtxIx) (tag : BitVec 16) : Statement (.varForce ctx tag) := by
  simp [Statement, Instr.wellFormed]
theorem varUnforce (ctx : CtxIx) (tag : BitVec 16) : Statement (.varUnforce ctx tag) := by
  simp [Statement, Instr.wellFormed]
theorem cellMbx (ctx : CtxIx) (tag : BitVec 16) : Statement (.cellMbx ctx tag) := by
  simp [Statement, Instr.wellFormed]
theorem cellFw (ctx : CtxIx) (tag : BitVec 16) : Statement (.cellFw ctx tag) := by
  simp [Statement, Instr.wellFormed]
theorem imgSlice (ctx : CtxIx) (tag : BitVec 16) : Statement (.imgSlice ctx tag) := by
  simp [Statement, Instr.wellFormed]
theorem imgFinish (ctx : CtxIx) (tag : BitVec 16) : Statement (.imgFinish ctx tag) := by
  simp [Statement, Instr.wellFormed]
theorem attest (ctx : CtxIx) (tag : BitVec 16) : Statement (.attest ctx tag) := by
  simp [Statement, Instr.wellFormed]
theorem switchover (ctx : CtxIx) (tag : BitVec 16) : Statement (.switchover ctx tag) := by
  simp [Statement, Instr.wellFormed]
theorem laneStart (ctx : CtxIx) (tag : BitVec 16) : Statement (.laneStart ctx tag) := by
  simp [Statement, Instr.wellFormed]
theorem laneStop (ctx : CtxIx) (tag : BitVec 16) : Statement (.laneStop ctx tag) := by
  simp [Statement, Instr.wellFormed]
theorem rateChange (ctx : CtxIx) (tag : BitVec 16) : Statement (.rateChange ctx tag) := by
  simp [Statement, Instr.wellFormed]
theorem deblock (ctx : CtxIx) (tag : BitVec 16) : Statement (.deblock ctx tag) := by
  simp [Statement, Instr.wellFormed]
theorem blockOrderly (ctx : CtxIx) (tag : BitVec 16) : Statement (.blockOrderly ctx tag) := by
  simp [Statement, Instr.wellFormed]
theorem block (ctx : CtxIx) (tag : BitVec 16) : Statement (.block ctx tag) := by
  simp [Statement, Instr.wellFormed]
theorem blockAck (ctx : CtxIx) (tag : BitVec 16) : Statement (.blockAck ctx tag) := by
  simp [Statement, Instr.wellFormed]
theorem tckCfgWrite (value : Word) : Statement (.tckCfgWrite value) := by
  simp [Statement, Instr.wellFormed]
theorem tckLaunchWrite (value : Word) : Statement (.tckLaunchWrite value) := by
  simp [Statement, Instr.wellFormed]
theorem tckMaxflightWrite (value : Word) : Statement (.tckMaxflightWrite value) := by
  simp [Statement, Instr.wellFormed]
theorem tckCommitGo (value : Word) : Statement (.tckCommitGo value) := by
  simp [Statement, Instr.wellFormed]
theorem tckFreezeWrite (value : Word) : Statement (.tckFreezeWrite value) := by
  simp [Statement, Instr.wellFormed]
theorem clkCommitGo (value : Word) : Statement (.clkCommitGo value) := by
  simp [Statement, Instr.wellFormed]
theorem clkSyncAlign (value : Word) : Statement (.clkSyncAlign value) := by
  simp [Statement, Instr.wellFormed]
theorem timSetGo (value : Word) : Statement (.timSetGo value) := by
  simp [Statement, Instr.wellFormed]
theorem timLatch (value : Word) : Statement (.timLatch value) := by
  simp [Statement, Instr.wellFormed]
theorem snapshotLatch (block : LatchBlock) : Statement (.snapshotLatch block) := by
  simp [Statement, Instr.wellFormed]
theorem lnkEchoGo (lane : LaneIx) (value : Word) : Statement (.lnkEchoGo lane value) := by
  simp [Statement, Instr.wellFormed]
theorem meaSarTrigSw (value : Word) : Statement (.meaSarTrigSw value) := by
  simp [Statement, Instr.wellFormed]
theorem meaCalGo (value : Word) : Statement (.meaCalGo value) := by
  simp [Statement, Instr.wellFormed]
theorem flcRst (high : Bool) (value : Word) : Statement (.flcRst high value) := by
  simp [Statement, Instr.wellFormed]
theorem fclFswClear (high : Bool) (value : Word) : Statement (.fclFswClear high value) := by
  simp [Statement, Instr.wellFormed]
theorem firstClr : Statement .firstClr := by
  simp [Statement, Instr.wellFormed]
theorem priorClr : Statement .priorClr := by
  simp [Statement, Instr.wellFormed]
theorem ldgArm (value : Word) : Statement (.ldgArm value) := by
  simp [Statement, Instr.wellFormed]
theorem ldgDisarm (value : Word) : Statement (.ldgDisarm value) := by
  simp [Statement, Instr.wellFormed]
theorem ldgFire (value : Word) : Statement (.ldgFire value) := by
  simp [Statement, Instr.wellFormed]
theorem ldgCfgWrite (value : Word) : Statement (.ldgCfgWrite value) := by
  simp [Statement, Instr.wellFormed]
theorem secFuseBurn (value : Word) : Statement (.secFuseBurn value) := by
  simp [Statement, Instr.wellFormed]
theorem fuseBurnDone : Statement .fuseBurnDone := by
  simp [Statement, Instr.wellFormed]
theorem epochRaise (value : Word) : Statement (.epochRaise value) := by
  simp [Statement, Instr.wellFormed]
theorem glbCtrlRun (value : Word) : Statement (.glbCtrlRun value) := by
  simp [Statement, Instr.wellFormed]
theorem dbgHalt (jtag : Bool) (value : Word) : Statement (.dbgHalt jtag value) := by
  simp [Statement, Instr.wellFormed]
theorem dbgResume (value : Word) : Statement (.dbgResume value) := by
  simp [Statement, Instr.wellFormed]
theorem registerWrite (addr : Word) (value : Word) (byteEnables : BitVec 4) (pf : Bool) : Statement (.registerWrite addr value byteEnables pf) := by
  simp [Statement, Instr.wellFormed]
theorem bootRom (checks : BootChecks) : Statement (.bootRom checks) := by
  simp [Statement, Instr.wellFormed]
theorem firmwareStart : Statement .firmwareStart := by
  simp [Statement, Instr.wellFormed]
theorem externalReset (straps : BitVec 3) : Statement (.externalReset straps) := by
  simp [Statement, Instr.wellFormed]
theorem pd0PowerOnReset : Statement .pd0PowerOnReset := by
  simp [Statement, Instr.wellFormed]
theorem supplyWarn (rail : Fin 10) : Statement (.supplyWarn rail) := by
  simp [Statement, Instr.wellFormed]
theorem supplyFault (rail : Fin 10) : Statement (.supplyFault rail) := by
  simp [Statement, Instr.wellFormed]
theorem supplyReset (rail : Fin 10) : Statement (.supplyReset rail) := by
  simp [Statement, Instr.wellFormed]
theorem domainPowerTimeout (domain : Fin 13) : Statement (.domainPowerTimeout domain) := by
  simp [Statement, Instr.wellFormed]
theorem pd12IdleOff : Statement .pd12IdleOff := by
  simp [Statement, Instr.wellFormed]
theorem feedStateChange (feedB : Bool) (millivolts : Int) : Statement (.feedStateChange feedB millivolts) := by
  simp [Statement, Instr.wellFormed]
theorem polgQualified (feedB : Bool) : Statement (.polgQualified feedB) := by
  simp [Statement, Instr.wellFormed]
theorem temperature (sixteenths : Int) : Statement (.temperature sixteenths) := by
  simp [Statement, Instr.wellFormed]
theorem dovetailLinkUp : Statement .dovetailLinkUp := by
  simp [Statement, Instr.wellFormed]
theorem domainPowerGood (domain : Fin 13) : Statement (.domainPowerGood domain) := by
  simp [Statement, Instr.wellFormed]
theorem flashWriteDone : Statement .flashWriteDone := by
  simp [Statement, Instr.wellFormed]
theorem safeOutReadbackMismatch (output : Fin 4) (channelB : Bool) : Statement (.safeOutReadbackMismatch output channelB) := by
  simp [Statement, Instr.wellFormed]

end Sys2Proof.Laws.Shape
end

