-- ==== Sys2Proof/Tests/Slice0.lean ====
section
/-! SUPPORT. For each statement with hypotheses, a state and operands that meet them together; ill-formed terms for each check;
and the spec's own check values and worked examples. -/

open Sys2Proof Sys2Proof.Machine

namespace Sys2Proof.Tests

set_option Elab.async false

/-! States the witnesses start from. -/

/-- A device in RUN with every power domain on, its main and port PLLs locked, on the PLL clock. -/
def live : State :=
  wrB CLK_STATUS_BYPASS false (wrB CLK_STATUS_PORT_LOCK true (wrB CLK_STATUS_LOCK true
    (wr PWR_DOMSTAT_ON 0x1FFF { State.reset with dev := .run })))
/-- The same device in SETUP. -/
def setup : State := { live with dev := .setup }
/-- The same device before its main PLL has locked. -/
def unlocked : State := wrB CLK_STATUS_LOCK false live
/-- The same device on the bypass clock. -/
def bypassed : State := wrB CLK_STATUS_BYPASS true live
/-- The same device with its converter in WATCH and its lanes lit. -/
def watching : State := { live with conv := .watch, watch := true, lanesOn := true }
/-- The same device with its converter DEBLOCKED and its lanes lit. -/
def deblocked : State := { live with conv := .deblocked, lanesOn := true }
/-- A device in FAILSTOP. -/
def failed : State := { live with dev := .failstop, role := .failstop }
/-- The device with a board descriptor in use. -/
def boarded (s : State) : State :=
  { s with sec := { s.sec with board := some { eq := [], macs := [1, 2], txDly := [], rxDly := [], modDly := [], ratioK := [1, 1]
                                               vnom := [110, 110] } } }

/-- A command of context 0 with tag 7. -/
def hostCmd (o : Opcode) (param body : List Byte) : HostCmd := { ctx := 0, opc := o, tag := 7, param := param, body := body }
/-- The command accepted for tick 0. -/
def acc (o : Opcode) (param body : List Byte) : Accepted := { cmd := hostCmd o param body, tick := 0, order := 0 }
/-- The device with that command accepted, and context 0 in RUN. -/
def due (o : Opcode) (param body : List Byte) (s : State) : State :=
  wr (HST_STAT_STATE 0) hRun { s with accepted := [acc o param body], accCount := 1, closeDone := some 0 }

/-- A command answers a next state that is as `p` says. -/
def nextIs (c : Instr) (s : State) (p : State → Bool) : Bool :=
  match exec c s with
  | .next t => p t
  | _ => false

/-! The queue, reset and the dead device. -/

/-- The same device with a divider commit held behind a reference switch that is over. -/
def heldCommit : State := wrB CLK_COMMIT_PEND true live

theorem wit_EmptyQueueCycle : (live.pending = [] ∧ dead live = false ∧ rdB live CLK_COMMIT_PEND = false) ∧
    (heldCommit.pending = [] ∧ dead heldCommit = false ∧ rdB heldCommit CLK_COMMIT_PEND = true ∧
      heldCommit.clk.switchEnd ≤ heldCommit.time + 1 ∧ rdB heldCommit CLK_STATUS_BYPASS = false) ∧
    (failed.pending = [] ∧ dead failed = true) := by decide

theorem wit_EveryStepProceeds :
    (Instr.descriptorFetch 0 [] []).wellFormed = false ∧ Instr.tickMark.wellFormed = true ∧
      ∀ c ∈ ({ live with pending := [.tickMark, .firstClr] } : State).pending, c.wellFormed = true := by decide

theorem wit_DeadDevice_unmoved : dead failed = true ∧ Instr.tickMark.wellFormed = true ∧ pd0Row .tickMark = false := by decide

theorem wit_DeadDevice_left : failed.dev = .failstop ∧ nextIs (.externalReset 0) failed (fun t => t.dev != .failstop) = true := by decide +kernel

theorem wit_DeadDevice_invariant : let s : State := { failed with pending := [.tickMark] }
    dead s = true ∧ (∀ c ∈ s.pending, pd0Row c = false) ∧ nextIs .tickMark failed (fun _ => true) = true := by decide

theorem wit_SparseListsCanonical : let s : State := { live with pending := [.firstClr] }
    kwf regReset s.regs = true ∧ kwf tabDefault s.tabs = true ∧ nextIs .firstClr live (fun _ => true) = true := by decide

/-- A READY converter, every deblock condition met, with a DEBLOCK due. -/
def toDeblock : State := due .deblock [] [] { live with conv := .ready, lanesOn := true }

theorem wit_ConverterStates_deblocked : commands toDeblock = true ∧ toDeblock.dpx.events = [] ∧
    nextIs (.deblock 0 7) toDeblock (fun t => t.conv == .deblocked) = true := by decide +kernel

theorem wit_ConverterStates_tripped : let s : State := due .laneStop [] [] { live with conv := .tripped }
    commands s = true ∧ s.dpx.events = [] ∧ s.conv = .tripped ∧ nextIs (.laneStop 0 7) s (fun t => t.conv == .dormant) = true := by decide +kernel

/-! The fault collector. -/

theorem wit_FailstopCauses : live.dev ≠ .failstop ∧ State.reset.dev ≠ .failstop := by decide

/-- A device with one running shadow. -/
def shadowed : State := { live with fcl := { live.fcl with shadows := [{ record := {}, ends := 5, shmask := 0 }] } }

theorem wit_CollectorCommands : Writable 0x58014 live ∧ Writable 0x58004 live ∧ Writable 0x58000 live ∧
    Live shadowed ∧ firstShadow shadowed = some { record := {}, ends := 5, shmask := 0 } :=
  ⟨⟨rfl, by decide, by decide⟩, ⟨rfl, by decide, by decide⟩, ⟨rfl, by decide, by decide⟩, rfl, by decide⟩

/-! Clocks and time. -/

theorem wit_PllLock : (Live unlocked ∧ rdB unlocked CLK_STATUS_LOCK = false) ∧
    (Live live ∧ rdB live CLK_STATUS_LOCK = true ∧ rdB live CLK_STATUS_B_OK = false ∧ rdB live CLK_CFG_FORCE_B = false ∧
      rdB (wrB CLK_CFG_FORCE_B true live) CLK_CFG_FORCE_B = true ∧ delayLocked live = false) :=
  ⟨⟨rfl, by decide⟩, rfl, by decide⟩

theorem wit_ClockReferences_detector : Live unlocked ∧ rdB unlocked CLK_STATUS_LOCK = false := ⟨rfl, by decide⟩

theorem wit_ClockReferences_relock : Live bypassed ∧ rdB bypassed CLK_STATUS_LOCK = true ∧ rdB bypassed CLK_STATUS_BYPASS = true ∧
    bypassed.clk.onOsc = false := ⟨rfl, by decide, by decide, rfl⟩

theorem wit_ClockReferences_loss : let s := wrB CLK_STATUS_A_OK true (wrB CLK_STATUS_B_OK true live)
    Live s ∧ rdB s CLK_STATUS_A_OK = true ∧ rdB s CLK_STATUS_B_OK = true := ⟨rfl, by decide, by decide⟩

theorem wit_ClockReferences_revert : let s := wrB CLK_CFG_REVERT true (wrB CLK_STATUS_REFSEL true live)
    Live s ∧ rdB s CLK_CFG_REVERT = true ∧ rdB s CLK_CFG_FORCE_B = false ∧ rdB s CLK_STATUS_REFSEL = true ∧ delayLocked s = false :=
  ⟨rfl, by decide, by decide, by decide, by decide⟩

theorem wit_ClockRegisterWrites_commit : (Writable 0x200C live ∧ rdB live CLK_COMMIT_PEND = false ∧ (1 : Word).getLsbD 0 = true ∧
      delayLocked live = false ∧ rdB live CLK_COMMIT_GO = false ∧ live.clk.switchEnd ≤ live.time ∧ rd live CLK_PLL_NINT = 50 ∧
      live.clk.nint = 50 ∧ servoOwns live = false) ∧
    (let s := wr CLK_PLL_NINT 51 live
     Writable 0x200C s ∧ rdB s CLK_COMMIT_PEND = false ∧ rdB s CLK_COMMIT_GO = false ∧ delayLocked s = false ∧
       s.clk.switchEnd ≤ s.time ∧ rd s CLK_PLL_NINT ≠ 50) ∧
    (let s : State := { live with clk := { live.clk with switchEnd := 5 } }
     Writable 0x200C s ∧ rdB s CLK_COMMIT_PEND = false ∧ rdB s CLK_COMMIT_GO = false ∧ delayLocked s = false ∧ s.time < s.clk.switchEnd) ∧
    (0 : Word).getLsbD 0 = false :=
  ⟨⟨⟨rfl, by decide, by decide⟩, by decide⟩, ⟨⟨rfl, by decide, by decide⟩, by decide⟩, ⟨⟨rfl, by decide, by decide⟩, by decide⟩, by decide⟩

theorem wit_ClockRegisterWrites_sync : Writable 0x2018 live ∧ Writable 0x2018 watching ∧
    ((6 : Word).toNat % 4 = 2 ∧ (6 : Word).toNat / 4 < 1000000000 ∧ live.conv = .dormant ∧ watching.conv ≠ .dormant) ∧
    (3 : Word).toNat % 4 = 3 ∧ 1000000000 ≤ (4000000000 : Word).toNat / 4 :=
  ⟨⟨rfl, by decide, by decide⟩, ⟨rfl, by decide, by decide⟩, by decide, by decide, by decide⟩

theorem wit_TimecountAndTriggers_set : Writable 0x302C live ∧ (1 : Word).getLsbD 0 = true ∧ live.conv = .dormant ∧
    rd live TIM_CFG_SRC ≠ 1 ∧ Writable 0x302C watching ∧ watching.conv ≠ .dormant ∧ Writable 0x3010 live :=
  ⟨⟨rfl, by decide, by decide⟩, by decide, rfl, by decide, ⟨rfl, by decide, by decide⟩, by decide, ⟨rfl, by decide, by decide⟩⟩

/-- A device whose SYNC_IN edges are timestamped and followed, one edge seen. -/
def pps : State :=
  let s := wr TIM_STATUS_TSTATE 1 (wr TIM_CFG_SRC 2 (wr CLK_SYNC_MODE 1 live))
  { s with servo := { s.servo with lastEdge := some 320 } }

/-- A device that aligns its second to SYNC_IN. -/
def aligning : State := wr CLK_SYNC_MODE 2 live

theorem wit_TimecountAndTriggers_sync : (Live pps ∧ rd pps CLK_SYNC_MODE = 1 ∧ rd pps TIM_CFG_SRC = 2 ∧
      rd (wr CLK_SYNC_MODE 1 live) CLK_SYNC_MODE = 1 ∧ rd (wr CLK_SYNC_MODE 1 live) TIM_CFG_SRC ≠ 2) ∧
    (Live aligning ∧ rd aligning CLK_SYNC_MODE = 2 ∧ aligning.conv = .dormant) ∧ rd live CLK_SYNC_MODE = 0 ∧
    (pps.servo.lastEdge = some 320 ∧ rd pps TIM_STATUS_TSTATE = 1) :=
  ⟨⟨rfl, by decide⟩, ⟨rfl, by decide, rfl⟩, by decide, rfl, by decide⟩

/-- A device with trigger unit 0 armed for Timecount 0, for an action, without and with a period. -/
def trigSet (action period : Nat) : State :=
  wr (TIM_TRIG_PERIOD_P 0) period (wrB (TIM_TRIG_CTRL_ARM 0) true (wr (TIM_TRIG_CTRL_ACTION 0) action live))

theorem wit_TimecountAndTriggers_fire : ∀ x ∈ [(1, 0), (3, 0), (1, 5000)], let s := trigSet x.1 x.2
    dead s = false ∧ trigArmed s 0 = true ∧ rdB s (TIM_TRIG_CTRL_TICKREF 0) = false ∧ trigReached s 0 s.time = true ∧
      rd s (TIM_TRIG_CTRL_ACTION 0) = x.1 ∧ rd s (TIM_TRIG_CTRL_TARGET 0) < 32 ∧ rd s (TIM_TRIG_PERIOD_P 0) = x.2 ∧
      s.clk.passed.getLsbD 0 = false := by decide

theorem wit_TimecountAndTriggers_ahead : (let s := wr (TIM_TRIG_TGT_LO_T 0) 9 (trigSet 1 5000)
      dead s = false ∧ trigArmed s 0 = true ∧ rdB s (TIM_TRIG_CTRL_TICKREF 0) = false ∧ trigReached s 0 s.time = false) ∧
    (let s := wrB (TIM_TRIG_CTRL_TICKREF 0) true (trigSet 1 5000)
     trigArmed s 0 = true ∧ rdB s (TIM_TRIG_CTRL_TICKREF 0) = true ∧ trigReached s 0 s.time = true ∧ rd s (TIM_TRIG_PERIOD_P 0) ≠ 0) := by
  decide

/-! The tick engine's registers and debug. -/

theorem wit_LaneModeAndLaunchCheck_cfg : (Writable 0x4000 live ∧ live.conv = .dormant) ∧ (Writable 0x4000 watching ∧ watching.conv ≠ .dormant) ∧
    ((9 : Word).toNat % 4 = rd live TCK_CFG_MODE ∧ (9 : Word).toNat % 4 ≠ 3 ∧ (9 : Word).toNat / 4 % 4 ≠ 0) ∧
    (3 : Word).toNat % 4 = 3 ∧ (1 : Word).toNat / 4 % 4 = 0 :=
  ⟨⟨⟨rfl, by decide, by decide⟩, rfl⟩, ⟨⟨rfl, by decide, by decide⟩, by decide⟩, by decide, by decide, by decide⟩

theorem wit_LaneModeAndLaunchCheck_mode : Writable 0x4000 live ∧ (8 : Word).toNat % 4 ≠ 3 ∧ (8 : Word).toNat / 4 % 4 ≠ 0 ∧
    (8 : Word).toNat % 4 ≠ rd live TCK_CFG_MODE ∧ live.conv = .dormant ∧ modeOf ((8 : Word).toNat % 4) = .swift ∧
    slotLacking .swift live = false ∧ lacksDeep live = false :=
  ⟨⟨rfl, by decide, by decide⟩, by decide, by decide, by decide, rfl, by decide, by decide, by decide⟩

/-- A device with a cell assigned at slot 40 of lane 0, which Deep lacks. -/
def slotForty : State := modCell 40 (fun c => { c with ent := { c.ent with serial := 1, avail := .unranged } }) live

theorem wit_LaneModeAndLaunchCheck_refused : ((8 : Word).toNat % 4 ≠ rd watching TCK_CFG_MODE ∧ watching.conv ≠ .dormant) ∧
    (let s := wr GLB_IDENT_VARIANT 2 live
     modeOf ((10 : Word).toNat % 4) = .deep ∧ (10 : Word).toNat % 4 ≠ rd s TCK_CFG_MODE ∧ (10 : Word).toNat / 4 % 4 ≠ 0 ∧
       s.conv = .dormant ∧ lacksDeep s = true) ∧
    (slotForty.conv = .dormant ∧ slotLacking .swift slotForty = true ∧ (8 : Word).toNat % 4 ≠ rd slotForty TCK_CFG_MODE) := by decide

theorem wit_LaneModeAndLaunchCheck_launch : Writable 0x4004 live ∧ Writable 0x4008 live ∧
    (let m := laneMode live
     let fits := fun (l f : Nat) => l + frameLen m + f ≤ tickSyms m false - 32
     fits (rd live TCK_LAUNCH_LAUNCH) (rd live TCK_MAXFLIGHT_MAXFLIGHT) ∧ earliestLaunch m ≤ rd live TCK_LAUNCH_LAUNCH ∧
       largestFlight live ≤ rd live TCK_MAXFLIGHT_MAXFLIGHT ∧ fits 0 (rd live TCK_MAXFLIGHT_MAXFLIGHT) ∧ 0 < earliestLaunch m ∧
       ¬ fits 0x3FFF (rd live TCK_MAXFLIGHT_MAXFLIGHT) ∧ ¬ fits (rd live TCK_LAUNCH_LAUNCH) 0xFFF) :=
  ⟨⟨rfl, by decide, by decide⟩, ⟨rfl, by decide, by decide⟩, by decide⟩

/-- A device with one cell farther away than MAXFLIGHT 1. -/
def farCell : State := modCell 0 (fun c => { c with ent := { c.ent with serial := 1, avail := .available, dsDelay := 40 } }) live

theorem wit_LaneModeAndLaunchCheck_flight : Writable 0x4008 farCell ∧
    launchFits (laneMode farCell) (rd farCell TCK_LAUNCH_LAUNCH) ((1 : Word).toNat % 2 ^ 12) = true ∧
    (1 : Word).toNat % 2 ^ 12 < largestFlight farCell := ⟨⟨rfl, by decide, by decide⟩, by decide, by decide⟩

theorem wit_CommitFreezeDebug : (Writable 0x4024 live ∧ (1 : Word).getLsbD 0 = true ∧ rdB live TCK_COMMIT_GO = false) ∧
    (Writable 0x4024 (wrB TCK_COMMIT_GO true live) ∧ rdB (wrB TCK_COMMIT_GO true live) TCK_COMMIT_GO = true) ∧
    (Writable 0x4028 live ∧ live.freeze = false ∧ debugBar live ≠ 0) ∧ (Writable 0x90000 live ∧ Writable 0x90004 live) ∧
    (let s := wrB GLB_STRAP_DBG_EN true live
     Writable 0x4028 s ∧ Writable 0x90000 s ∧ s.freeze = false ∧ debugBar s = 0) :=
  ⟨⟨⟨rfl, by decide, by decide⟩, by decide, by decide⟩, ⟨⟨rfl, by decide, by decide⟩, by decide⟩,
    ⟨⟨rfl, by decide, by decide⟩, rfl, by decide⟩, ⟨⟨rfl, by decide, by decide⟩, rfl, by decide, by decide⟩,
    ⟨rfl, by decide, by decide⟩, ⟨rfl, by decide, by decide⟩, rfl, by decide⟩

/-- One byte of a table entry changed. -/
def setByte (t i off : Nat) (v : Byte) (s : State) : State := { s with tabs := setTabIn s.tabs t i ((tab s t i).set off v) }

/-! Supplies, domains, feeds and resets. -/

theorem wit_SuppliesAndResets : live.dev ≠ .failstop ∧ live.dev ≠ .reset ∧
    ([0, 1, 3, 4, 8, 9] : List Nat).contains (0 : Fin 10).val = true ∧ ([0, 1, 3, 4, 8, 9] : List Nat).contains (5 : Fin 10).val = false ∧
    (1 : Fin 10) ≠ 2 := by decide

/-- A device that has asked domain 2 to power up, with and without a write held for it. -/
def asking (held : List (Nat × Word)) : State :=
  wrBit PWR_DOMSTAT_ON 2 false { live with pwr := { live.pwr with request := [(2, 7)], held := held } }

theorem wit_PowerDomains : (Live (asking []) ∧ khas (asking []).pwr.request 2 = true ∧ ∀ x ∈ (asking []).pwr.held, domainOf x.1 ≠ 2) ∧
    (Live live ∧ khas live.pwr.request 2 = false ∧ live.dev ≠ .boot ∧ domainOn live 12 = true ∧ flowItems live 37 = 0) ∧
    flowItems (due .attest [] [] live) 37 ≠ 0 :=
  ⟨⟨rfl, by decide, by decide⟩, ⟨rfl, by decide, by decide, by decide, by decide⟩, by decide⟩

/-- A device whose feed A has been fit since 10 ms before Timecount 20 ms. -/
def feeding : State :=
  let s := wrB PWR_CFG_FEEDEN_A true (boarded live)
  { s with time := 20000000, pwr := { s.pwr with feeds := [(0, { state := 3, mv := 110000, qualAt := some 10000000 })] } }

theorem wit_FeedsAndTemperature : (feedBoard feeding).isSome = true ∧ (batt feeding 0).qualAt = some 10000000 ∧
    (batt feeding 0).polg = false ∧ feedFit feeding 0 = true ∧ feedEn feeding 0 = true ∧ feedClass (batt feeding 0).state 110 110000 = 3 ∧
    feedClass (batt feeding 0).state 110 10000 ≠ 3 ∧ live.dev ≠ .failstop ∧ live.pwr.tempOver = 0 := by decide +kernel

/-! Protection and safety. -/

/-- A device with safety input 0 enabled and inconsistent. -/
def inconsistent : State :=
  setByte 0x09 0 128 1 { live with prot := { live.prot with ins := [(0, { filtA := true, incSince := some 3 })] } }

theorem wit_SafetyInputs : (Live inconsistent ∧ (sin_ inconsistent 0).incSince = some 3 ∧ (sin_ inconsistent 0).incDone = false ∧
      fldB (prt inconsistent) (128 + 8 * 0) 0 = true) ∧ rdBit inconsistent PRT_DEMAND_SI_LAT 0 = false :=
  ⟨⟨rfl, by decide +kernel, by decide +kernel, by decide +kernel⟩, by decide +kernel⟩

/-- A device with safety output 0 in the feedback state given, with test pulses, and with feedback or without. -/
def output (fb : FbState) (cfg : Byte) : State :=
  setByte 0x09 0 192 cfg { live with prot := { live.prot with outs := [(0, { energised := true, fb := fb, since := 9 })] } }

/-- The same output with a pulse on the channel given. -/
def pulsing (chB : Bool) : State :=
  setByte 0x09 0 192 2 { live with prot := { live.prot with outs := [(0, { energised := true, fb := .on, since := 9, pulse := some chB })] } }

theorem wit_SafetyOutputs_pulse : (Live (output .on 2) ∧ (sout (output .on 2) 0).fb = .on ∧ (sout (output .on 2) 0).energised = true ∧
      fldB (prt (output .on 2)) (192 + 16 * 0) 1 = true ∧ (sout (output .on 2) 0).pulse = none ∧
      (if (sout (output .on 2) 0).tpAt.isSome && !(sout (output .on 2) 0).tpB then false else true) = true) ∧
    ∀ chB, Live (pulsing chB) ∧ (sout (pulsing chB) 0).fb = .on ∧ (sout (pulsing chB) 0).energised = true ∧
      fldB (prt (pulsing chB)) (192 + 16 * 0) 1 = true ∧ (sout (pulsing chB) 0).pulse = some chB ∧
      (if chB then chB else !chB) = true :=
  ⟨⟨rfl, by decide +kernel⟩, fun chB => ⟨rfl, by cases chB <;> decide +kernel⟩⟩

theorem wit_SafetyOutputs_feedback : (Live (output .pickup 4) ∧ fbEn (output .pickup 4) 0 = true ∧ (sout (output .pickup 4) 0).fb = .pickup ∧
      (fbTimer (prt (output .pickup 4)) 0 (sout (output .pickup 4) 0)).isSome = true ∧
      fldB (prt (output .pickup 4)) (192 + 16 * 0) 3 = false) ∧
    (fbEn (output .dropout 4) 0 = true ∧ (sout (output .dropout 4) 0).fb = .dropout) ∧ fbEn (output .on 2) 0 = false :=
  ⟨⟨rfl, by decide +kernel, by decide +kernel, by decide +kernel, by decide +kernel⟩, by decide +kernel, by decide +kernel⟩

/-- A device with the first key of the safety reset written at Timecount 4, seen at the Timecount given. -/
def keyed (now : Nat) : State := { live with time := now, prot := { live.prot with key1 := some 4 } }

theorem wit_SafetyResetSequence : (Writable 0x48004 (keyed 5) ∧ (keyed 5).dev = .run ∧ (keyed 5).role = .solo) ∧
    ((0xA55A : Word).toNat % 65536 = 0xA55A ∧ (0x5AA5 : Word).toNat % 65536 = 0x5AA5 ∧ (keyed 5).prot.key1 = some 4 ∧
      (keyed 5).time ≤ 4 + 1000000) ∧
    (Writable 0x48004 (keyed 1000005) ∧ 4 + 1000000 < (keyed 1000005).time) ∧ live.prot.key1 = none ∧
    (1 : Word).toNat % 65536 ≠ 0xA55A ∧ (1 : Word).toNat % 65536 ≠ 0x5AA5 ∧ Live (keyed 5) :=
  ⟨⟨⟨rfl, by decide, by decide⟩, rfl, rfl⟩, by decide, ⟨⟨rfl, by decide, by decide⟩, by decide⟩, rfl, by decide, by decide, rfl⟩

/-- A device with receive connection 0 enabled, a copy waiting, and its port 0 up. -/
def receiving : State :=
  let s := wrB (PRT_RXSTAT_PORT0_UP 0) true (setByte 0x09 0 268 1 live)
  { s with prot := { s.prot with rx := [(0, { copies := [{ port := 0, at_ := 2, bytes := [] }], lastCopy0 := some 2 })] } }

theorem wit_TelegramTimers : Live receiving ∧ (rxc receiving 0).copies = [{ port := 0, at_ := 2, bytes := [] }] ∧
    fldB (rxEntry (prt receiving) 0) 12 0 = true ∧ (rxc receiving 0).timedOut = false ∧
    (rxc receiving 0).lastCopy0 = some 2 ∧ rdB receiving (PRT_RXSTAT_PORT0_UP 0) = true :=
  ⟨rfl, by decide +kernel, by decide +kernel, by decide +kernel, by decide +kernel, by decide +kernel⟩

/-! Duplex operation. -/

/-- An ACTIVE device with GRANT high. -/
def active : State := { live with role := .active, dpx := { live.dpx with grant := true } }
/-- An ACTIVE device whose GRANT fell at Timecount 6. -/
def grantLow : State := { live with role := .active, dpx := { live.dpx with grantLowAt := some 6 } }

/-- A STANDBY device without GRANT. -/
def standby : State := { live with role := .standby }
/-- An ACTIVE device that has released its lasers for a switch-over. -/
def released : State := { active with dpx := { active.dpx with released := true } }

theorem wit_GrantAndRelease_levels : (Live setup ∧ setup.dpx.grant = false ∧ setup.dev ≠ .run) ∧
    (Live standby ∧ standby.dpx.grant = false ∧ standby.dev = .run ∧ follows standby = true) ∧
    (Live active ∧ active.dpx.grant = true ∧ active.role = .active ∧ active.dpx.released = false) ∧
    (released.dpx.grant = true ∧ released.role = .active ∧ released.dpx.released = true) ∧
    (grantLow.dpx.grantLowAt = some 6 ∧ grantLow.role = .active ∧ grantLow.dpx.grant = false ∧ grantLow.dpx.released = false ∧
      grantLow.time < 6 + 1000) ∧ active.dev = .run :=
  ⟨⟨rfl, by decide⟩, ⟨rfl, by decide⟩, ⟨rfl, by decide⟩, by decide, by decide, rfl⟩

/-- The device with its referee lane running. -/
def refereed (s : State) : State := wrB (LNK_STATUS_UP 68) true s

/-- An ACTIVE device one tick before a planned switch-over, its referee lane running. -/
def releasing : State := refereed { due .switchover [] [] active with tick := 0xFFFFFFFF }

theorem wit_GrantAndRelease_planned : Live releasing ∧ releasing.dev = .run ∧ lineOn releasing 68 = true ∧
    (releasing.accepted.find? fun a => a.cmd.opc == .switchover && a.tick == releasing.tick + 1) = some (acc .switchover [] []) ∧
    releasing.role = .active ∧ releasing.dpx.released = false ∧ windowDecided releasing 0 = true :=
  ⟨rfl, rfl, by decide, by decide, rfl, rfl, by decide⟩

/-- The bits of bytes between K27.7 and K29.7, after a comma. -/
def frameBits (b : List Byte) : List Bool := symBits false ([.k K28_5, .k K27_7] ++ b.map .d ++ [.k K29_7])
/-- A status frame of the referee with no grant given. -/
def status (good : Bool) : RefFrame :=
  { bits := frameBits ([0x31, 0, 0, 0, 0, 0] ++ leBytes 2 (crc crc16 [0x31, 0, 0, 0, 0, 0] + bitNat (!good))) }




/-- A device in disagreement with the referee since Timecount 1. -/
def disagreeing : State := { active with dpx := { active.dpx with disSince := some 1 } }

theorem wit_RefereeLane : (let s := refereed (wrB FCL_STATUS_YIELD true active)
      dead s = false ∧ s.dev = .run ∧ lineOn s 68 = true ∧ yields s = true ∧ s.dpx.yieldTold = false) ∧
    (active.dev = .run ∧ active.role ≠ .solo ∧ active.dpx.laneLate = false) ∧
    (disagreeing.dpx.disSince = some 1 ∧ disagreeing.dpx.disDone = false) := by decide

/-- The bytes of that frame. -/
def statusBytes (good : Bool) : List Byte := [0x31, 0, 0, 0, 0, 0] ++ leBytes 2 (crc crc16 [0x31, 0, 0, 0, 0, 0] + bitNat (!good))

theorem wit_RefereeLane_status :
    (∀ x, framed (pointRx 68 (status x).bits { refereed active with sent := [] }).1 = some (statusBytes x)) ∧
    framed (pointRx 68 [] { refereed active with sent := [] }).1 = none ∧
    ((statusBytes true).length = 8 ∧ (statusBytes true).getD 0 0 = 0x31 ∧
      crc crc16 ((statusBytes true).take 6) = fld (statusBytes true) 6 0 16) ∧
    ((statusBytes false).length = 8 ∧ crc crc16 ((statusBytes false).take 6) ≠ fld (statusBytes false) 6 0 16) := by decide +kernel

/-- A device with its Dovetail link up, its lanes running, expecting segment 3, with the values asked for given. -/
def linked (asked : List (BitVec 16 × Tick)) : State :=
  let s := wrB DPX_STATUS_DVL_UP true (wrB (LNK_STATUS_UP 64) true { live with role := .standby })
  { s with dpx := { s.dpx with rxNext := some 3, nakked := asked } }
/-- The bits of a segment with SSEQ `n`, the last of its record or not, its CRC good or not. -/
def segmentBits (n : BitVec 16) (last good : Bool) : List Bool :=
  let b := segmentBytes 9 last n 0 [1, 2]
  frameBits (if good then b else b.set 8 0)
/-- A STATUS record. -/
def statusRec : DoveRec := .status .active true true [] 5

theorem wit_DovetailTraffic : (Live live ∧ rdB live DPX_STATUS_DVL_UP = false) ∧
    (Live (linked []) ∧ rdB (linked []) DPX_STATUS_DVL_UP = true ∧ (linked []).dpx.rxNext = some 3 ∧ (linked []).dpx.rxHeld = [] ∧
      (linked []).dpx.nakked = [] ∧ (linked []).role = .standby ∧ lineOn (linked []) 64 = true) :=
  ⟨⟨rfl, by decide⟩, ⟨rfl, by decide⟩⟩

/-- What a receiver finds in the bits of a segment. -/
def foundIn (n : BitVec 16) (last good : Bool) : Option DoveFrame :=
  (framed (pointRx (64 + (0 : Fin 4)) (segmentBits n last good) { linked [] with sent := [] }).1).bind fun b => segmentOf b statusRec
/-- The frame it stands for. -/
def frameOf (n : BitVec 16) (last good : Bool) : DoveFrame :=
  { rtype := 9, last := last, sseq := n, rtick := 0, crcOk := good, holds := statusRec }

theorem wit_DovetailTraffic_segments : foundIn 3 false true = some (frameOf 3 false true) ∧ foundIn 3 true true = some (frameOf 3 true true) ∧
    foundIn 5 true true = some (frameOf 5 true true) ∧ foundIn 3 false false = some (frameOf 3 false false) ∧
    (0 : Int) < (5 - (3 : BitVec 16)).toInt := by decide +kernel

/-! Marks, windows and phases. -/

/-- What the phase of window 1 works on: nothing assigned. -/
def noInputs : PhaseIn :=
  { window := 1, conv := .ready, watch := false, cells := [], tabs := [], markAt := 0, tlen := 10000, chains := [], mbx := [],
    sv := [], refHold := 0 }
/-- The phase of window 1, with launch point 100. -/
def phase1 : Phase :=
  { window := 1, conv := .ready, watch := false, markAt := 0, tlen := 10000, launch := 100, slots := [], mbx := [], disc := []
    back := { window := 1, deb := false, cells := [], arms := [], syms := 0, inp := noInputs, slots := [], osc := [] } }
/-- A lit READY device whose phase of window 1 runs at the Timecount given. -/
def computing (now : Nat) : State := { live with conv := .ready, lanesOn := true, time := now, run := some phase1 }

theorem wit_MarksAreNumbered : (Live live ∧ live.numChange = none ∧ rd live TIM_CFG_SRC = 0 ∧ dueCmds live = [] ∧ live.dpx.closed = [] ∧
      live.dpx.events = [] ∧ live.dpx.rxHeld = [] ∧ marksRun live = true ∧ live.dev = .run ∧ lineOn (refereed live) 68 = true) ∧
    (Live bypassed ∧ rd bypassed TIM_CFG_SRC = 0 ∧ dueCmds bypassed = [] ∧ bypassed.dev = .run ∧ rdB bypassed CLK_STATUS_BYPASS = true ∧
      marksRun bypassed = false) :=
  ⟨⟨rfl, by decide⟩, rfl, by decide⟩

/-- A lit device whose next mark begins a new numbering of the kind given. -/
def renumbering (k : NumKind) (c : ConvState) : State :=
  { live with conv := c, watch := k == .rateToFull, lanesOn := true, litAt := some 0
              numChange := some { kind := k, lastOld := 0, switchAt := some (if k = .rateToFull then 100000 else 10000), ctx := 0 } }

theorem wit_NumberingBegins : ∀ x ∈ [(NumKind.rateToFull, ConvState.watch), (.rateToWatch, .ready), (.laneStart, .dormant)],
    let s := renumbering x.1 x.2
    dead s = false ∧ marksRun s = true ∧ (s.numChange.map fun n => (n.kind, n.switchAt)) = some (x.1, some (nextMark s)) ∧
      rd s TIM_CFG_SRC = 0 ∧ dueCmds s = [] ∧ s.dpx.closed = [] ∧ s.dpx.events = [] ∧ s.dpx.rxHeld = [] ∧
      s.misses < rd s TCK_CFG_MISS_LIMIT ∧ s.litAt.isSome = true := by decide

/-- A device with a report of cell 0 in hand. -/
def reported : State :=
  { live with cells := [(0, { ent := { serial := 1, avail := .available }, dyn := { rx := .report (List.replicate 24 3) } })] }

theorem wit_UpstreamWindowCloses : (Live reported ∧ dueCmds reported = [] ∧ marksRun reported = true ∧ reported.closeDone ≠ some reported.tick ∧
      reported.dpx.closed = [] ∧ waitsTickin reported = false ∧ reported.run = none ∧ reported.dpx.unsentWins = []) ∧
    ({ live with closeDone := some 0 } : State).closeDone = some live.tick ∧ marksRun bypassed = false ∧ dueCmds bypassed = [] :=
  ⟨⟨rfl, by decide⟩, rfl, by decide, by decide⟩

theorem wit_PhaseEnds : ∀ x ∈ [(50, 0), (20000, 2)], let s := computing x.1
    dead s = false ∧ dueCmds s = [] ∧ s.run = some phase1 ∧ follows s = false ∧ s.dpx.partner = [] ∧ s.dpx.unsent = false ∧
      phase1.lost = false ∧
      (let e := max s.time (phase1.markAt + symNs phase1.watch 1)
       let l := phase1.markAt + phase1.tlen + symNs phase1.watch phase1.launch
       let lim := l + symNs phase1.watch (rd s TCK_SLIP_SLIP_EFF)
       (x.2 = 0 → e ≤ l) ∧ (x.2 = 2 → lim < e)) := by decide

/-- The same device with a slip limit of 4,000 symbols, its phase ended 300 symbols late. -/
def slipping : State := wr TCK_SLIP_SLIP_EFF 4000 (computing 10400)

theorem wit_PhaseEnds_slip : Live slipping ∧ slipping.run = some phase1 ∧ follows slipping = false ∧ slipping.dpx.notBefore ≤ 10400 ∧
    (let e := max slipping.time (phase1.markAt + symNs phase1.watch 1)
     let l := phase1.markAt + phase1.tlen + symNs phase1.watch phase1.launch
     e = 10400 ∧ l < e ∧ e ≤ l + symNs phase1.watch (rd slipping TCK_SLIP_SLIP_EFF)) := ⟨rfl, rfl, by decide⟩

/-- A lit READY device with the frames of window 1 ready. -/
def launching : State := { live with conv := .ready, lanesOn := true, ready := [phase1] }

/-- The same device with no phase for window 1, its lane 0 running. -/
def unphased : State := wrB (LNK_STATUS_UP 0) true { live with conv := .ready, lanesOn := true, lanes := [(0, { lit := true })] }

theorem wit_LaunchPointSends : (Live launching ∧ dueCmds launching = [] ∧ launching.lanesOn = true ∧ launching.conv ≠ .dormant ∧
      rdB launching CLK_STATUS_BYPASS = false ∧ launching.sentWin ≠ some (launching.tick + 1) ∧ commands launching = true ∧
      (launching.ready.find? fun p => p.window == launching.tick + 1) = some phase1 ∧
      launching.dpx.notBefore ≤ phase1.markAt + phase1.tlen + symNs phase1.watch phase1.launch) ∧
    (unphased.lanesOn = true ∧ unphased.conv ≠ .dormant ∧ unphased.sentWin ≠ some (unphased.tick + 1) ∧ commands unphased = true ∧
      unphased.ready = [] ∧ unphased.run = none ∧ unphased.waitIn = [] ∧
      unphased.dpx.notBefore ≤ unphased.markAt + symNs unphased.watch (launchSym unphased) ∧
      laneRuns unphased 0 = true ∧ lineOn unphased 0 = true) ∧ live.lanesOn = false :=
  ⟨⟨rfl, by decide⟩, by decide, rfl⟩

/-- A READY device that has missed the limit of windows. -/
def missing : State := { live with conv := .ready, lanesOn := true, misses := 3 }

theorem wit_LostWindowsAndBlockSet : ((computing 0).run = some phase1 ∧ phase1.window = (computing 0).tick + 1 ∧ phase1.lost = false ∧
      phase1.taken = false ∧ follows (computing 0) = false) ∧
    (Live missing ∧ missing.missDone = false ∧ rd missing TCK_CFG_MISS_LIMIT ≤ missing.misses ∧ follows missing = false) ∧
    (let s : State := { unphased with fcl := { live.fcl with blockReq := true } }
     s.fcl.blockReq = true ∧ s.lanesOn = true ∧ s.conv ≠ .dormant ∧ setRuns s = false) ∧
    (Writable 0x4000 live ∧ (0 : Word).toNat / 4 % 4 = 0) :=
  ⟨by decide, ⟨rfl, rfl, by decide, by decide⟩, by decide, ⟨rfl, by decide, by decide⟩, by decide⟩

/-! Star lanes and cells. -/

/-- A device with cell 0 in the state given. -/
def oneCell (c : Cell) : State := { live with cells := [(0, c)] }

theorem wit_AvailabilityFallsDue :
    (let s := oneCell { ent := { avail := .available }, dyn := { missRun := 3 } }
     dead s = false ∧ 3 ≤ (cell s 0).dyn.missRun ∧ (cell s 0).ent.avail = .available ∧
       (s.avails.any fun x => x.addr.toNat == 0 && x.target == .missing) = false) ∧
    (let s := oneCell { ent := { avail := .missing }, dyn := { validRun := 16 } }
     (cell s 0).ent.avail = .missing ∧ 16 ≤ (cell s 0).dyn.validRun) ∧
    (let s := oneCell { ent := { avail := .refreshing }, dyn := { refEnd := some 1 } }
     (cell s 0).dyn.refEnd = some 1 ∧ (cell s 0).ent.avail = .refreshing ∧ tickGe s.tick (1 - 2) = true) := by decide

/-- A device with lane 0 lit. -/
def lit : State := { live with conv := .ready, lanesOn := true, lanes := [(0, { lit := true })] }
/-- A burst of a payload with an arrival, in 1/16 symbol from nominal. -/
def burstOf (arr : Int) (payload : List Byte) : Burst := { arr := arr, bits := symBits false (burstSyms payload) }
/-- A burst of zero bytes. -/
def burst (arr : Int) : Burst := burstOf arr (List.replicate 24 0)

/-- The payload of a valid NORMAL report of cell 0 in tick 0, or of an invalid one. -/
def reportBytes (good : Bool) : List Byte :=
  List.replicate 22 0 ++ leBytes 2 (crc crc16 (leBytes 4 0 ++ List.replicate 22 0) + bitNat (!good))
/-- A device with lane 0 lit and cell 0 available. -/
def listening : State := { lit with cells := [(0, { ent := { serial := 1, avail := .available } })] }

theorem wit_BurstJudged_runs : Live listening ∧ listening.lanesOn = true ∧ laneRuns listening 0 = true ∧
    (0 : Fin 128).val < slotsOf (liveMode listening) ∧ rd listening (LNK_CTRL_LOOP 0) = 0 ∧ rd listening (LNK_CTRL_PATTERN 0) = 0 ∧
    discWindow (lane listening 0) listening.tick = none ∧ (cell listening 0).ent.avail ≠ .empty ∧
    (cell listening 0).ent.avail ≠ .unranged ∧ live.lanesOn = false ∧ 4 * 16 < (burst 100).arr.natAbs ∧ (burst 0).arr.natAbs ≤ 4 * 16 :=
  ⟨rfl, by decide⟩

theorem wit_BurstJudged : ∀ g, (let r := readBurst (lineBits listening 0 (burstOf 0 (reportBytes g)).bits)
      r = { found := true, payload := reportBytes g, codeErr := 0, dispErr := 0 }) ∧
    (g = true ↔ crc crc16 (leBytes 4 listening.tick.toNat ++ (reportBytes g).take 22) = fld (reportBytes g) 22 0 16) ∧
    fld (reportBytes g) 0 13 3 = 0 ∧ fld (reportBytes g) 0 0 13 = 0 ∧ (readBurst (lineBits listening 0 [])).found = false := by
  decide +kernel

theorem wit_RangingAndTracking :
    (let s := oneCell { dyn := { confirm := some { apply := 0, run := 8 } } }
     dead s = false ∧ (cell s 0).dyn.confirm = some { apply := 0, run := 8 } ∧ confirmNeed s ≤ 8) ∧
    (let s : State := { oneCell { dyn := { confirm := some { apply := 0, run := 0 } } } with tick := 100 }
     0 < confirmNeed s ∧ 8 * confirmNeed s - 1 ≤ tickDiff s.tick 0) ∧
    (let s := oneCell { ent := { avail := .available }, dyn := { cnt := 1024, acc := 100000 } }
     (cell s 0).ranged = true ∧ 2 ^ (fld (rangingRec s) 2 0 3 + 3) ≤ (cell s 0).dyn.cnt ∧
       4096 ≤ ((cell s 0).dyn.acc * 512 / ((cell s 0).dyn.cnt : Int)).natAbs ∧ commands s = true) := by decide

/-- A mailbox operation of the host's command of order 0, sent and answered BUSY, with its resends. -/
def busyOp (resends : Nat) : MbxOut :=
  { op := { op := 1, slot := 0, owner := .host 0, resends := resends }, tag := 9, etick := 0, busy := some 0 }
/-- A device in which that operation has been busy for 2,048 ticks. -/
def busy (resends : Nat) : State := { due .cellMbx [] [] live with tick := 2048, lanes := [(0, { out := [busyOp resends] })] }
/-- A distribution of one block to lane 0. -/
def fwAt (st : FwStage) (next : Nat) : FwJob :=
  { ctx := 0, order := 0, lanes := [0], image := [1, 2], version := 0, sha := [], resLen := 0, stage := st, next := next }
/-- A device with that distribution and one ranged cell on lane 0. -/
def distributing (st : FwStage) (next : Nat) : State :=
  { due .cellFw [] [] live with fwJob := some (fwAt st next), cells := [(0, { ent := { serial := 1, avail := .available } })] }

theorem wit_MailboxAndFirmware_busy :
    (let s := busy 0
     dead s = false ∧ ((lane s 0).out.find? fun x => x.tag == 9) = some (busyOp 0) ∧ 2048 ≤ tickDiff s.tick 0 ∧ (busyOp 0).op.resends < 3) ∧
    (let s := busy 3
     ((lane s 0).out.find? fun x => x.tag == 9) = some (busyOp 3) ∧ 3 ≤ (busyOp 3).op.resends ∧
       (s.accepted.find? fun x => x.order == 0) = some (acc .cellMbx [] []) ∧ hDiscards s 0 = false) := by decide

theorem wit_MailboxAndFirmware_distribution : (dead (distributing .begin_ 0) = false ∧ fwBusy (distributing .begin_ 0) = false ∧
      (distributing .data 0).fwJob = some (fwAt .data 0) ∧ 0 < fwBlocks (fwAt .data 0)) ∧
    (fwBlocks (fwAt .data 1) ≤ 1 ∧ fwTargets (distributing .data 1) (fwAt .data 1) ≠ []) ∧
    (let s := distributing .query 0
     (fwAt .query 0).missing = [] ∧ (s.accepted.find? fun x => x.order == 0) = some (acc .cellFw [] []) ∧
       (acc .cellFw [] []).cmd.mirrored = false ∧ hDiscards s 0 = false) := by decide +kernel

/-- The same device where cell 0 lacks block 0, or is asked again about it. -/
def resending (st : FwStage) : State :=
  { distributing .query 0 with fwJob := some { fwAt st 0 with targets := [0], missing := if st = .query then [(0, 0)] else [] } }

theorem wit_MailboxAndFirmware_resend : (fwBusy (resending .query) = false ∧
      (resending .query).fwJob.any (fun j => decide (j.stage = .query ∧ j.missing ≠ [])) = true) ∧
    (fwBusy (resending .resend) = false ∧
      (resending .resend).fwJob.any (fun j => decide (j.stage = .resend ∧ j.targets ≠ [])) = true) := by decide

/-- A lit device whose lane 0 is enabled, with its error counts. -/
def laneErr (quiet code : Nat) : State :=
  wr LNK_GCFG_LOS_TICKS 8 (wr LNK_GCFG_CODE_THR 2 (wrB (LNK_CTRL_EN 0) true
    (wr CLK_STATUS_LPLL_LOCK 15 { live with conv := .ready, lanesOn := true, lanes := [(0, { lit := true, quiet := quiet, codeTick := code })] })))

theorem wit_LaneErrorsAndPlls : let s := laneErr 8 2
    dead s = false ∧ s.lanesOn = true ∧ laneRuns s 0 = true ∧ laneEn s 0 = true ∧ rdB s (LNK_STATUS_LOS 0) = false ∧
      rd s LNK_GCFG_LOS_TICKS ≤ (lane s 0).quiet ∧ (lane s 0).codeDone = false ∧ rd s LNK_GCFG_CODE_THR ≤ (lane s 0).codeTick ∧
      rdBit s CLK_STATUS_LPLL_LOCK 0 = true ∧ rdB s CLK_STATUS_PORT_LOCK = true := by decide

/-- A WATCH device with cell 0 available, with or without a running echo on lane 0. -/
def echoing (e : Option EchoRun) : State :=
  { watching with cells := [(0, { ent := { serial := 1, avail := .available } })], lanes := [(0, { lit := true, echo := e })] }

theorem wit_CellEcho : (Writable 0x1000C (echoing none) ∧ (0x180 : Word).getLsbD 7 = true ∧ (lane (echoing none) 0).echo = none ∧
      (echoing none).conv = .watch ∧ (cell (echoing none) 0).ent.avail = .available ∧ (0x180 : Word).toNat / 256 % 65536 ≠ 0) ∧
    (Writable 0x1000C live ∧ live.conv = .dormant ∧ (0x100 : Word).getLsbD 7 = false ∧ (0x100 : Word).toNat / 256 % 65536 ≠ 0) ∧
    (Live (echoing (some { slot := 0, left := 0 })) ∧ (lane (echoing (some { slot := 0, left := 0 })) 0).echo = some { slot := 0, left := 0 }) :=
  ⟨⟨⟨rfl, by decide, by decide⟩, by decide⟩, ⟨⟨rfl, by decide, by decide⟩, by decide⟩, rfl, by decide⟩

theorem wit_LanesStopOnUnlock : let s : State := { watching with clk := { watching.clk with stopAt := some 4 } }
    Live s ∧ s.clk.stopAt = some 4 ∧ s.conv = .watch := ⟨rfl, rfl, rfl⟩

/-! Measurement, filter chains and the loop engine. -/

/-- A DEBLOCKED device whose comparator 0 is enabled and has seen 7 BAD outputs. -/
def badInputs : State :=
  setByte 0x09 0 0 0x40 { deblocked with prot := { deblocked.prot with oc := [(0, { bad := 7 })] } }

theorem wit_InputsFail_comparator : Live badInputs ∧ (cmpCfg (prt badInputs) 0).1 = true ∧ badInputs.conv = .deblocked ∧
    fld (prt badInputs) 98 3 3 ≤ (cmpGet badInputs 0).bad ∧ 0 < (cmpGet badInputs 0).bad ∧ (cmpGet badInputs 0).badDone = false :=
  ⟨rfl, by decide +kernel, rfl, by decide +kernel, by decide, by decide⟩

/-- A device with an enabled sampled-value stream that lacks samples, and a mailbox as old as STALE. -/
def staleInputs : State :=
  wr LPE_CFG_STALE 3 (setByte 0x04 0 8 1
    { live with meas := { live.meas with sv := [(0, { missRun := 300 })] }, mbx := [(0, { age := 5 })] })

theorem wit_InputsFail : (let s : State := { live with meas := { live.meas with clkEn := 1 } }
      dead s = false ∧ s.meas.clkEn.testBit ((0 : Fin 24).val / 4) = true ∧ s.meas.stuck.getLsbD 0 = false) ∧
    ({ live with meas := { live.meas with stuck := 1 } } : State).meas.stuck.getLsbD 0 = true ∧
    (fldB (svEntry staleInputs 0) 8 0 = true ∧ (svSt staleInputs 0).lost = false ∧
      fld (svEntry staleInputs 0) 10 0 8 ≤ (svSt staleInputs 0).missRun) ∧
    (rd staleInputs LPE_CFG_STALE ≠ 0 ∧ rd staleInputs LPE_CFG_STALE ≤ (kget ({} : RefMbx) staleInputs.mbx 0).age ∧
      rdBit staleInputs (LPE_STALE_STALE (0 / 32)) (0 % 32) = false) := by decide +kernel

/-- A scan of the reference channel alone. -/
def refScan (done : List (Nat × Int × BitVec 3)) : SarScan := { stamp := 0, start := 0, seq := 0, mask := 0, results := done }
/-- A device with that scan running, and a trigger latched or not. -/
def scanning (done : List (Nat × Int × BitVec 3)) (pend : Option Nat) : State :=
  { live with meas := { live.meas with scan := some (refScan done), pend := pend, tickDue := some 2 } }

theorem wit_ScansAndCalibration_triggers : (let s : State := { live with meas := { live.meas with tickDue := some 2 } }
      dead s = false ∧ s.meas.tickDue = some 2 ∧ s.meas.scan = none) ∧
    ((scanning [] none).meas.scan.isSome = true ∧ (scanning [] none).meas.pend = none) ∧ (scanning [] (some 1)).meas.pend.isSome = true :=
  ⟨by decide, by decide, by decide⟩

theorem wit_ScansAndCalibration_trigger_write : Writable 0x21004 live ∧
    ((0x107 : Word).toNat / 256 % 256 ≠ 0 ∧ (0x107 : Word).toNat / 65536 < tickLen live ∧ (0x107 : Word).getLsbD 2 = true ∧
      (0x103 : Word).getLsbD 2 = false) ∧
    ((7 : Word).toNat / 256 % 256 = 0 ∧ tickLen live ≤ (0xFFFF0100 : Word).toNat / 65536) :=
  ⟨⟨rfl, by decide, by decide⟩, by decide, by decide⟩

theorem wit_ScansAndCalibration_results : Live (scanning [] none) ∧ (scanning [] none).meas.scan = some (refScan []) ∧
    (scanList 0)[(refScan []).results.length]? = some (16 : Fin 23).val ∧
    (let s := scanning [(16, 30000, 0)] (some 1)
     s.meas.scan = some (refScan [(16, 30000, 0)]) ∧ (scanList 0).length ≤ (refScan [(16, 30000, 0)]).results.length ∧
       s.meas.pend = some 1) := ⟨rfl, rfl, by decide, by decide⟩

theorem wit_ScansAndCalibration_calibration_write : Writable 0x21010 live ∧ rdB live MEA_SAR_STAT_CAL_BUSY = false ∧
    ((0x80 : Word).getLsbD 7 = true ∧ (0x80 : Word).getLsbD 6 = false ∧ (0x80 : Word).toNat % 64 < 24) ∧
    (let s := wr MEA_SAR_MASK_MASK 0 live
     Writable 0x21010 s ∧ rdB s MEA_SAR_STAT_CAL_BUSY = false ∧ 24 ≤ (0x98 : Word).toNat % 64 ∧ rdBit s MEA_SAR_MASK_MASK (24 - 24) = false) ∧
    ((0xC0 : Word).getLsbD 6 = true ∧ live.meas.calA0 = none) ∧
    (Writable 0x21010 (wrB MEA_SAR_STAT_CAL_BUSY true live) ∧ rdB (wrB MEA_SAR_STAT_CAL_BUSY true live) MEA_SAR_STAT_CAL_BUSY = true) ∧
    40 ≤ (0x28 : Word).toNat % 64 ∧ ((1 : Word).getLsbD 7 = false ∧ (1 : Word).toNat % 64 < 40) :=
  ⟨⟨rfl, by decide, by decide⟩, by decide, by decide, ⟨⟨rfl, by decide, by decide⟩, by decide⟩, by decide,
    ⟨⟨rfl, by decide, by decide⟩, by decide⟩, by decide, by decide⟩

/-- A device with 256 results of a point of channel 0 averaged, and the A0 given. -/
def averaged (point bad : Bool) (a0 : Rat) : State :=
  wr MEA_CAL_FS_FS 1000 { live with meas := { live.meas with
    cal := some { ch := 0, point := point, count := 256, sum := 256 * 1000, bad := bad }, calA0 := some (0, a0) } }

theorem wit_ScansAndCalibration_point :
    (∀ p b a, (averaged p b a).meas.cal = some { ch := 0, point := p, count := 256, sum := 256 * 1000, bad := b }) ∧
    calOpen (averaged true false 0) { ch := 0, point := true, count := 256, sum := 256 * 1000, bad := false } = false ∧
    (let d : Rat := (256 * 1000 : Rat) / 256 - 0
     let fs : Rat := (rd (averaged true false 0) MEA_CAL_FS_FS : Nat)
     (averaged true false 0).meas.calA0 = some (0, 0) ∧ 0 < d ∧ 3 / 4 ≤ fs / d ∧ fs / d ≤ 5 / 4) ∧
    (256 * 1000 : Rat) / 256 - 2000 ≤ 0 :=
  ⟨fun _ _ _ => rfl, by decide +kernel⟩

/-- A device whose chain 0 runs on its enabled modulator with R1 8, R2 2 and R3 4, freshly reset. -/
def filtering : State :=
  setByte 0x05 0 3 4 (setByte 0x05 0 2 2 (setByte 0x05 0 1 8 (setByte 0x05 0 0 5 (wrB (MEA_SDCH_EN 0) true
    { live with meas := { live.meas with clkEn := 1 }
                chains := [(0, { running := true, sinc2 := { n := 1 }, sinc3 := { n := 1 } })] }))))

theorem wit_FilterChains : Live filtering ∧ sdRuns filtering 0 = true ∧ (chain filtering 0).fade = none ∧
    (let e := chDesc filtering 0
     let x := chain filtering 0
     (chFast e = true ∧ 1 < chR3 e ∧ x.sinc2.n = bitNat (x.fastCnt == 0) ∧ pathBits (x.fastCnt + 1) (chR3 e) = 3) ∧
       (1 < chR1 e ∧ 0 < chR2 e ∧ x.sinc3.n = bitNat (x.fineCnt == 0) ∧ pathBits (x.fineCnt + 1) (chR1 e * chR2 e) = 15)) ∧
    Writable 0x28000 live ∧ Writable 0x28004 live :=
  ⟨rfl, by decide +kernel, by decide, by decide +kernel, ⟨rfl, by decide, by decide⟩, rfl, by decide, by decide⟩

/-! Networks and remote stations. -/

/-- A device that is a boundary clock, slave on pair 0, in the servo state given, its port `p` up. -/
def ptp (p tstate : Nat) : State :=
  wr NET_PTPCFG_ROLE 2 (wr NET_PTPCFG_SPAIR 0 (wr TIM_STATUS_TSTATE tstate (wrB (NET_PORTSTAT_LINK p) true (boarded live))))

theorem wit_PortsAndPtp_ports : (let s := wrBit NET_CFG_PORTEN 0 true live
      dead s = false ∧ rdB s (NET_PORTSTAT_LINK 0) = false ∧ rdBit s NET_CFG_PORTEN 0 = true ∧ rdB s CLK_STATUS_PORT_LOCK = true ∧
        rdB s CLK_STATUS_LOCK = true ∧ domainOn s 9 = true ∧ ptpPort s 0 = false) ∧
    (rdB (ptp 0 2) (NET_PORTSTAT_LINK 0) = true ∧ ptpPort (ptp 0 2) 0 = true ∧ slavePair (ptp 0 2) 0 = true ∧
      ptpPort (ptp 2 2) 2 = true ∧ slavePair (ptp 2 2) 2 = false) := by decide

theorem wit_PortsAndPtp_ptp : (dead (ptp 2 2) = false ∧ ptpPort (ptp 2 2) 2 = true ∧ portUp (ptp 2 2) 2 = true ∧
      masterPort (ptp 2 2) 2 = true ∧ masterSends (ptp 2 2) = true) ∧
    (ptpPort (ptp 2 0) 2 = true ∧ portUp (ptp 2 0) 2 = true ∧ masterPort (ptp 2 0) 2 = true ∧ masterSends (ptp 2 0) = false) ∧
    (let s : State := { ptp 0 2 with net := { live.net with ports := [(0, { best := some {} })] } }
     ptpPort s 0 = true ∧ (port s 0).best.isSome = true ∧ (port s 0).timedOut = false ∧ slavePair s 0 = true) := by decide

/-- A frame of a payload with the redundancy trailer and destination given. -/
def netFrame (da : BitVec 48) (t : Option (Bool × BitVec 16)) (x : NetPayload) : NetFrame :=
  { da := da, sa := 5, len := 100, fcsOk := true, trailer := t, raw := 0, payload := x }
/-- A device with port 2 up, a stream of destination 1 subscribed, and one copy of SeqNr 9 from station 5 received. -/
def heard : State := setByte 0x04 0 0 1 (setByte 0x04 0 8 1 { ptp 2 2 with net := { live.net with dups := [(1, [(5, 9, 0)])] } })

theorem wit_FramesReceived : portUp live 0 = false ∧ portUp heard 2 = true ∧
    netTakes heard 2 (netFrame 1 none .other) = false ∧
    (let f := netFrame 1 (some (true, 9)) (.sv [])
     netTakes heard 2 f = true ∧ ((kget [] heard.net.dups 1).find? fun x => x.1 == f.sa && x.2.1 == 9) = some (5, 9, 0) ∧
       heard.time < 0 + rd heard NET_CFG_FORGET * 1000000) ∧
    (let f := netFrame 1 (some (true, 8)) (.sv [])
     netTakes heard 2 f = true ∧ ∀ x ∈ kget [] heard.net.dups 1, x.1 ≠ f.sa ∨ x.2.1 ≠ 8) ∧
    (ptpPort heard 2 = true ∧ ptpDomain heard + 1 ≠ ptpDomain heard) := by decide +kernel

/-- A device with a subscription, a publication and a station whose times come. -/
def stations : State :=
  { live with
    net := { live.net with subs := [(0, { expires := some 3 })], pubs := [(0, { nextAt := some 4 })] }
    bench := { live.bench with stations := [(0, { waiting := [(1, 5)] })] } }

theorem wit_StationTimers : Live stations ∧ (gsub stations 0).expires = some 3 ∧ (gpub stations 0).nextAt = some 4 ∧
    commands stations = true ∧ commands ({ stations with role := .standby }) = false ∧ (stn stations 0).waiting = [(1, 5)] ∧
    follows stations = false ∧ (stn stations 0).lost = false := by
  refine ⟨rfl, ?_⟩
  decide

/-! Benches and the Foreman. -/

/-- A task of the periods and priorities given. -/
def taskOf (event : Bool) (prio : Nat) : TaskDef :=
  { event := event, safety := false, ovrOnce := false, prio := prio, period := 1, offset := 0, affinity := 3, wdt := 4, ovrLim := 0, rseg := 255 }
/-- A program of one cyclic and one event task. -/
def program : ProgImage :=
  { compat := 0, imageId := 1, predId := 0, codeLen := 0, rlayout := 0, tasks := [taskOf false 2, { taskOf true 1 with period := 0 }], io := []
    vars := [], idata := [0, 0], hash := [], epoch := 0 }
/-- The running program with a cycle of task 0 on executor 0, a missed release held back or not. -/
def cycling (held : Option Tick) : State :=
  { live with
    bench := { live.bench with pstate := .running, image := some program, tasks := [(0, { running := some (0, 0), held := held, age := 4 })] }
    fmn := { live.fmn with ctxs := [(0, { st := .running, exec := 0, affinity := 3, prio := 2 })], execs := [(0, 1)] } }

theorem wit_BenchCycles : (Live (cycling none) ∧ (task (cycling none) 0).running = some (0, 0) ∧ cycleRuns (cycling none) 0 = true) ∧
    (task (cycling none) 0).held = none ∧ (task (cycling (some 1)) 0).held = some 1 ∧ (task (cycling none) 0).forces = [] ∧
    cycleRuns live 0 = false ∧ (taskDef (cycling none) 0).isSome = true ∧ (taskOf false 2).wdt ≤ (task (cycling none) 0).age ∧
    split live = false ∧ live.bench.benchFailed.getLsbD 0 = false ∧ inFence (cycling none) = false ∧
    (0 < sevOf (cycling none) .busError ∧ shadowFor (cycling none) (srcBit .busError) = none) ∧
    (onExec (cycling none) 0 = some 0 ∧ (fctx (cycling none) 0).exec = 0 ∧ onExec live 0 = none) := by
  refine ⟨⟨rfl, ?_⟩, ?_⟩ <;> decide +kernel

/-- A journal entry of segment 0. -/
def entry (doneA : Bool) : Journal := { seg := 0, copy := { layout := 0, jseq := 1, data := [7] }, doneA := doneA }
/-- A device with that entry in its journal. -/
def journalled (doneA : Bool) : State := { live with bench := { live.bench with journal := [entry doneA] } }
/-- A device that changes to another program, with a cycle of the old one still running or not. -/
def changing (cycle : Bool) : State :=
  { due .progChange [] [] live with
    bench := { live.bench with
      pstate := .changing, image := some program, changeTo := some ({ program with imageId := 2 }, 0, 0)
      tasks := if cycle then [(0, { running := some (0, 0) })] else [] }
    tick := 1000 }

theorem wit_JournalAndChange : (Live (journalled false) ∧ (journalled false).bench.journal = [entry false] ∧ (entry false).doneA = false) ∧
    ((journalled true).bench.journal = [entry true] ∧ (entry true).doneA = true) ∧
    (let s := changing false
     dead s = false ∧ s.bench.changeTo = some ({ program with imageId := 2 }, 0, 0) ∧ s.bench.image = some program ∧
       s.bench.pstate = .changing ∧ (s.accepted.find? fun x => x.order == 0) = some (acc .progChange [] []) ∧ hDiscards s 0 = false ∧
       cyclesRun s = []) ∧
    (cyclesRun (changing true) ≠ [] ∧ rd (changing true) BEN_CFG_CHG_WAIT ≤ tickDiff (changing true).tick 0) :=
  ⟨⟨rfl, rfl, rfl⟩, by decide, by decide, by decide⟩

/-- The running program with its event task waiting for flag 0. -/
def waiting (flags : BitVec 64) : State :=
  { live with
    bench := { live.bench with pstate := .running, image := some program }
    fmn := { live.fmn with ctxs := [(32, { st := .waiting, wmask := 1, flags := flags, affinity := 3, prio := 1 })] } }

theorem wit_ExecutorWaits_waits : Live (waiting 1) ∧ eventWaits (waiting 1) 32 = true ∧ (taskDef (waiting 1) 32).isSome = true ∧
    waitMet (fctx (waiting 1) 32).flags (fctx (waiting 1) 32).wmask (fctx (waiting 1) 32).all = true ∧
    waitMet (fctx (waiting 0) 32).flags (fctx (waiting 0) 32).wmask (fctx (waiting 0) 32).all = false ∧
    (fctx (waiting 0) 32).left = 0 ∧ canRun (waiting 1) (taskOf true 1) = true := by
  refine ⟨rfl, ?_⟩
  decide

/-- Two ready contexts of different priority, and a third running on the one executor both may use, or none. -/
def contexts (running : Bool) : State :=
  { live with
    bench := { live.bench with pstate := .running, image := some program }
    fmn := { live.fmn with
      ctxs := [(0, { st := .ready, affinity := 1, prio := 2 }), (1, { st := if running then .running else .idle, affinity := 1, prio := 5, exec := 0 })]
      ready := [(2, 0)], execs := if running then [(0, 2)] else [] } }

theorem wit_ExecutorWaits_executors : (let s1 := sync { contexts false with sent := [] }
      execUsable s1 0 = true ∧ onExec s1 0 = none ∧ firstReady s1 0 = some 0) ∧
    (let s1 := sync { contexts true with sent := [] }
     (fctx s1 0).st = .ready ∧ (∀ e, e < 16 → (fctx s1 0).affinity.getLsbD e = true → execUsable s1 e = true → (onExec s1 e).isSome = true) ∧
       victim s1 0 = some 1 ∧ (fctx s1 0).prio < (fctx s1 1).prio) ∧
    (let s : State := { live with fmn := { live.fmn with ctxs := [(96, { st := .running, exec := 0 })], execs := [(0, 97)] } }
     (fctx s 96).st = .running ∧ onExec s (fctx s 96).exec = some 96) ∧
    (let s : State := { live with fmn := { live.fmn with flows := [(0, { idle := 100000 })] }, ctxs := [(0, { sub := [{ cmd := none }] })] }
     (kget ({} : FlowSt) s.fmn.flows 0).stalled = false ∧ rd s FMN_CFG_STALL_TICKS ≤ (kget ({} : FlowSt) s.fmn.flows 0).idle ∧
       flowItems s 0 ≠ 0 ∧ ringHeld s 0 = false) := by decide +kernel

/-! Signed images (R537), under an RSA-3072 key made for these tests. -/

/-- Numbers of 48 bytes, most significant first, as one string of bytes. -/
def bytes48 (l : List Nat) : List Byte := l.flatMap (beBytes 48)
/-- The modulus of the key. -/
def modulus : List Byte := bytes48
  [0xcd9bfdfe5eeaf75b57965d363799dec6caafb2cadb4db93e5c2d9e30ef394e4460ab1bd39b04393087aae9d0a369f424,
   0x0c0bff178a933f08bb8bd66f614b0b00ced85ba0a8964855d9089afcff82f4045c0baa460cfe4e82d4578fe2dfb08c40,
   0xb7681b02d950ba2c7f9e6d284fd91d4e176d3e972dc6521f7014aa3fb080f63e2704c53e2d97ec16bfe52ca25eb125de,
   0x3a44021464a589d0c51961441ae0efdc0d8a56cfd8d3f7a8db75b71653767ba25631807aed02cc8a5a233a4b43070e5b,
   0x63b49a594a2450cb304cf1568d9f0c8b5c3f0c8013f6f9dd383dcfaafdf844707a6e5b0c8ff75ed58d4cd0e2a98157ea,
   0x6cf65eeac86528fa8f9f0a5780f61524f49501d1ba573b7aeb25531e1eea10404f23dd35ee8569855421478233387bfa,
   0x97661b3354e61a4d9d1b4cc887754fda36cf7f46dfd076ef0b5594b089240f9e7b94522c6c488e77993129587702369f,
   0xd7a1dea7b2459343dc6f17e9651d9d14e63087c4a3588176597b550cdccb560082f8b81a2dddb9edc38b889f24ce2041]
/-- The SHA-256 of the modulus. -/
def keyHash : List Byte := beBytes 32 0xcec5a0a19e4ef5ada74f2ef80b8dbebd682d676ca52990aa1725b23c9f753a64
/-- An image of a kind under a key slot, with its body's hash and its signature. -/
def signedImage (kind slot : Byte) (bodyHash : Nat) (sig : List Nat) (body : List Byte) : List Byte :=
  leBytes 4 0x34564654 ++ [1, kind, slot, 0] ++ leBytes 8 1 ++ leBytes 8 body.length ++ beBytes 32 bodyHash ++ List.replicate 8 0 ++
    modulus ++ bytes48 sig ++ List.replicate 192 0 ++ body
/-- A program image of no task, one variable and 4 bytes of instance data. -/
def programImage : List Byte := signedImage 4 4 0x7e7e3ad92e2c491d6e6959d47e0f920ffa22b5c829bbb84192a78225765326f5
  [0x8347285431d502feea261fd77c50df9dafc2f94349e5f7ce0401115c251987107afbcdb9436fd40d4e63ea5bcd801c8b,
   0xfc1b52260dcb7af6775981048f6a1069de2c3223780d15ce9e444089f0a50845d1ea818ae51d7c6e20a4e7bafe617cd9,
   0x14dd7f900a64018c7d3505edf28d923218dc521e0f5a6dce3fdc5ede652ffc3a91dbb0c32056debc4a3d2566dc4f7bfc,
   0xe2419eb6c658103658a19b70eb3c7aa08638df9e4e2f1c6076ae2646ae9c81825d7bda15ae73af9e915349d3b2307266,
   0xcc27cd7a3a7a6b13408e6d1423069b0a3fa955023c5d7a6f59aa17f5895ab4bafdcd3550b5f8dbda2485227189c57d19,
   0x8c6973b5dffc353bc3e453fa01f5bd2376235ea0e59e47315a49eb390b11dcbcaf9bc251d6c29573f8b49d4e629e1c32,
   0xe4380bbb3c9c74d1fff550603946fdce9b9dc2545828debfc93159ba306ae51e6a77741485ddb8f5844598323e9b363f,
   0x66c650ab49c77ea0b501a5975f9c69a0b8174a3452d11f5335ff0351d9f5de666c7c54adc99dd416c7f935bb6fdacd1a]
  (leBytes 84 0xff00000000000000010000000000000000000000000000000000000000000000000000000100000000000000000000000000000004000000000000000000000000000000000000000100000002)
/-- A device firmware image. -/
def firmwareImage : List Byte := signedImage 1 0 0x6e340b9cffb37a989ca544e6bb780a2c78901d3fb33738768511a30617afa01d
  [0x13d0706055b22a9e5a4d18d1431d76d898f9556b3297376e2613f047323cc9e2c904753516d0055478a7db0d2fe93adc,
   0x46880a37f4503df03126bf914d8ee7b340245460806523bd7640a77a9731fb8aa72031fe717d5dcca98ace9e414d83dc,
   0x54eb16bb1b772d834b3462162818810e6aed55be7339fcc673656f6472b4ccd1179303e3e3ca03674fc03d414c7da3a4,
   0x6543d088373c0f9acd6ce412c5f089fbc5eff1b3459cc60201b5c5833be96e181cd6dcf8eda7e5a2ac03251f6d12d3c2,
   0x1a4c825afa0766c276e3fb388fde73c4835ef9cd3e1c397d427ab435fbb79edb2ce091e3419ee39c46013ce2baf0c7df,
   0xf24fbe590d76981667185a75cfa19c18a0f17e79f78bcc03c8b940902c629fb47bd05f5d3424b3f506045b5d19848c7c,
   0xa0a6f74c5e0f84e20464d3e84c268866f3e1af4aeb9c61c3eb4a6353200ea3ff87dae95cda2158635975493633d14c14,
   0xb1bbc92bf9ef34e1eaa5dcdd8be1609a705c62c90d2bddf5932476b9bea8531c700c98066d6972ec3e8a74308ffdf762]
  (leBytes 1 0x0)
/-- A cell firmware image. -/
def cellImage : List Byte := signedImage 5 4 0x6e340b9cffb37a989ca544e6bb780a2c78901d3fb33738768511a30617afa01d
  [0x2c1e550b1ba7308f88a679fc850dbe90325e2e97736b7942cd85b74101ed92f296408057f5e5df902238436862ca3dff,
   0xb9060cb7fc687dbaae43ab777e9b7cc99faed78b43d64694d5c56f538e0505145b1e09cc16194fba88c485cf84d796b6,
   0x3aaba9c9c2a78a107a574c59b4b65db6add438f7f79f389128dbb019b2c75cfdbff86a3e190d94b57deeb4194db79166,
   0xd1a406ac7738003d181a9f9c3169739cce6a54437b65f79e1cfeee8506542ebd43bdac38cfb7b0416f9edb74b64d649d,
   0xf564ac6545b4dd73c358dabce011044201eb60df2f2730d2952908086c990cd06c4aa2b1dca2379c454bc298781b69b2,
   0x960bc617f120058bf52f231182d215aa5dc44a158aec86b43a4b9daf1ddd0fcde6b8be564d77db17c121119066ba9dd8,
   0x3b880ddbefb16cdde8f02524a8ce10234c96f498f0ce4ed29c728af266632c1d0f30ca5fb8f3a3009aa3dcf42e1f6ccc,
   0x399ae4a75d1b4ee0c03ffcb074861067e4f319f777afd6909f7ce2906054c713cdc8068f08fcd1b3b379dfb0fc364ad1]
  (leBytes 1 0x0)

/-- A revocation of slot 5. -/
def revocationImage : List Byte := signedImage 3 4 0x36a9e7f1c95b82ffb99743e0c5c4ce95d83c9a430aac59f84ef3cbfab6145068
  [0x19dfdec5e385c282001ef596302a967fa3b96b6a1179e4ad7103f0da2c70c1dd03161953792aa71c834c11f8d6af6e19,
   0xcd47698a656198f95d1745254410ba752a24463d8efe4f6a1facffab9e67220116ffa46ed7473b0b2d7d8f22df2fe0e0,
   0x63348237692ed447a61bff569ff333c36614e59118a53fb2293e96472f8c8fbccd4aaa1ca7de532415077093ebceb495,
   0xe760b5817b7bbbda1f6d74b1cc94fbfde22cf62df7d2a0dadb24afbebe38d17f841f641a996c2f6ea91492c4ab61a3b6,
   0x74928ef07cd0239fc8c6df1041342fa0acbdc67156695e060ca6f90770c6066c6838c3cc1499318dd99cda5c6a09b02d,
   0xbf51034f08f2fcaffed6c016ddf27f3bc61fc230972fee715f856b22e48e78dbae21a0c3ea6f19ac417eca1ce50d8374,
   0xdb041b89d49f36a605544b7e25833cd275f7b82da93a1d8bad3e1202c05fe67a507f59216e4bd45c2fa5f3a8de1d1538,
   0x49dcde15f99ff870ded2616a9908936e1aba7021d02094f1277f679ae8f96b82c221e3ed1f9cb72e25b34f742c5c3694]
  (leBytes 1 0x20)
/-- A device whose key slots 0 and 4 hold the key, with slot 5 programmed too. -/
def signed (s : State) : State := { s with sec := { s.sec with prog := 0x3F, hashes := [(0, keyHash), (4, keyHash)] } }

/-! The Ledger. -/

/-- The least configuration: both streams off, a pool of two units, rings of 1,024 samples. -/
def ledger : State := wr LDG_CFG_POOL 2 (wr LDG_CFG_SNAP_DEPTH 10 (wr LDG_CFG_CHAN_DEPTH 10 live))
/-- A device whose trigger unit 0 is armed, with the firings given, in its hold-off or not. -/
def armedUnit (fires : List TrigFire) (hold : Option Nat) : State :=
  { ledger with ledger := { ledger.ledger with trigs := [(0, { armed := true, fires := fires, holdTill := hold })] } }

theorem wit_LedgerUnitsAndStreams_units : Writable 0x70008 live ∧ Writable 0x7000C live ∧ Writable 0x70010 (armedUnit [] none) ∧
    (trig (armedUnit [] (some 9)) 0).holdTill = some 9 ∧
    ((trig (armedUnit [{ at_ := 0 }] none) 0).fires = [{ at_ := 0 }] ∧ (trig (armedUnit [{ at_ := 0 }] none) 0).armed = true ∧
      holds (trig (armedUnit [{ at_ := 0 }] none) 0) 0 = false ∧ holds (trig (armedUnit [{ at_ := 0 }] (some 9)) 0) 0 = true) ∧
    ((trig (armedUnit [] none) 0).fires = [] ∧ holds (trig (armedUnit [] none) 0) (armedUnit [] none).time = false) :=
  ⟨⟨rfl, by decide, by decide⟩, ⟨rfl, by decide, by decide⟩, ⟨rfl, by decide, by decide⟩, by decide, by decide, by decide⟩

theorem wit_LedgerUnitsAndStreams_room : ∀ x ∈ [armedUnit [{ at_ := 0 }] none, armedUnit [] none],
    streamsAsleep x = false ∧ filling x (trStream (trEntry x 0)) < (if trStream (trEntry x 0) then 2 else 64) ∧
      x.ledger.segs.length < 65536 ∧ (trig x 0).armed = true ∧ (trig x 1).armed = false ∧ (trig x 1).fires = [] ∧
      ((segUsed x + (64 + trN (trEntry x 0) * (if trStream (trEntry x 0) then snapBytes (liveMode x) else chanSize x)) : Nat) : Int) ≤
        segAreaNow x := by decide +kernel

/-- The configuration word of the depths and pool given, both streams off. -/
def ledgerWord (sd cd pool : Nat) : Word := BitVec.ofNat 32
  (sd * 2 ^ LDG_CFG_SNAP_DEPTH.lo + cd * 2 ^ LDG_CFG_CHAN_DEPTH.lo + pool * 2 ^ LDG_CFG_POOL.lo)

theorem wit_LedgerUnitsAndStreams_config : Writable 0x70000 ledger ∧
    (let v := ledgerWord 10 10 2
     let f := fun (x : Field) => v.toNat / 2 ^ x.lo % 2 ^ x.width
     f LDG_CFG_SNAP_DEPTH = 10 ∧ f LDG_CFG_CHAN_DEPTH = 10 ∧ f LDG_CFG_POOL = 2 ∧ f LDG_CFG_SNAP_EN = 0 ∧ f LDG_CFG_CHAN_EN = 0 ∧
       2 ^ 28 ≤ segArea ledger 2 10 10 ∧ segArea ledger 1 10 10 < 2 ^ 28) ∧
    (∀ x ∈ [(9, 10, 2), (10, 9, 2), (10, 10, 0), (10, 10, 29)],
      (ledgerWord x.1 x.2.1 x.2.2).toNat / 2 ^ LDG_CFG_SNAP_DEPTH.lo % 2 ^ LDG_CFG_SNAP_DEPTH.width = x.1 ∧
      (ledgerWord x.1 x.2.1 x.2.2).toNat / 2 ^ LDG_CFG_CHAN_DEPTH.lo % 2 ^ LDG_CFG_CHAN_DEPTH.width = x.2.1 ∧
      (ledgerWord x.1 x.2.1 x.2.2).toNat / 2 ^ LDG_CFG_POOL.lo % 2 ^ LDG_CFG_POOL.width = x.2.2) ∧
    (let s := wrB LDG_CFG_SNAP_EN true ledger
     Writable 0x70000 s ∧ rdB s LDG_CFG_SNAP_EN = true ∧ rd s LDG_CFG_POOL ≠ 3 ∧ rdB ledger LDG_CFG_SNAP_EN = false ∧
       (ledgerWord 10 10 2 + 1#32).toNat / 2 ^ LDG_CFG_SNAP_EN.lo % 2 ^ LDG_CFG_SNAP_EN.width = 1) :=
  ⟨⟨rfl, by decide, by decide⟩, by decide +kernel, by decide, ⟨rfl, by decide, by decide⟩, by decide, by decide, by decide, by decide⟩

theorem wit_LedgerUnitsAndStreams_lost : ({ live with ledger := { live.ledger with snapRing := [(0, [1])], chanRing := [(0, [2])] } } : State).ledger.snapRing =
    (0, [1]) :: [] ∧ ([1] : List Byte) ≠ [] := by decide

/-! Host contexts and commands. -/

/-- A device with context 0 in RUN on rings of 16 entries, one descriptor rung for, and the completion flow given. -/
def ringing (state : Nat) (out : List CqItem) : State :=
  wr (HST_STAT_STATE 0) state (wr (HST_RING_SQ_LOG 0) 4 (wr (HST_RING_CQ_LOG 0) 4 { live with ctxs := [(0, { sqTail := 1, out := out })] }))
/-- A completion of a command with tag 7. -/
def okEntry : Completion := { tag := 7, status := .ok, opc := 0, etick := 0 }
/-- An event of no data. -/
def anEvent : DevEvent := { ecode := 0x0301, tick := 0, time := 0 }

theorem wit_HostRings_doorbells : (Live (ringing hRun []) ∧ hstate (ringing hRun []) 0 = hRun ∧ hstate (ringing hDraining []) 0 = hDraining ∧
      sqSize (ringing hRun []) 0 = 16 ∧ cqSize (ringing hRun []) 0 = 16 ∧
      (rd (ringing hRun []) (HST_CQTAIL_TAIL 0) + 16 - (hctx (ringing hRun []) 0).cqHead) % 16 = 0) ∧
    ((15 : Word).toNat % 4096 < 16 ∧ 16 ≤ (16 : Word).toNat % 4096) ∧
    ((0 + 16 - 0) % 16 ≤ 0 ∧ 0 < ((1 : Word).toNat % 4096 + 16 - 0) % 16) ∧
    (let s := wr (HST_CQTAIL_TAIL 0) 2 (ringing hRun [])
     ((2 : Word).toNat % 4096 + 16 - (hctx s 0).cqHead) % 16 ≤ (rd s (HST_CQTAIL_TAIL 0) + 16 - (hctx s 0).cqHead) % 16 ∧
       (rd s (HST_CQTAIL_TAIL 0) + 16 - (hctx s 0).cqHead) % 16 < ((3 : Word).toNat % 4096 + 16 - (hctx s 0).cqHead) % 16) ∧
    rdB (wrB (HST_IRQ_XEN 0) true (ringing hRun [])) (HST_IRQ_XEN 0) = true ∧
    hstate live 0 = hOff ∧ hstate (ringing hError []) 0 = hError := by
  refine ⟨⟨rfl, ?_⟩, ?_⟩ <;> decide

/-- A device with an unsignalled entry, a completion or an event, since Timecount 2 and coalescing on. -/
def coalescing (ev : Bool) : State :=
  let s := wrB (HST_IRQ_CEN 0) true (wrB (HST_IRQ_EEN 0) true (wr (HST_IRQ_COAL_US 0) 5 live))
  { s with ctxs := [(0, if ev then { irqE := 1, irqEAt := some 2 } else { irqC := 1, irqCAt := some 2 })] }

/-- An event that carries an extension. -/
def extEvent : DevEvent := { anEvent with data := List.replicate 13 0 }

theorem wit_HostRings_entries : mayFetch (ringing hRun []) 0 = true ∧ mayFetch live 0 = false ∧ (List.replicate 64 (1 : Byte)).length = 64 ∧
    crc crc16 ((List.replicate 64 (1 : Byte)).take 62) ≠ fld (List.replicate 64 (1 : Byte)) 62 0 16 ∧
    (∀ st ∈ [hRun, hDraining], let s := ringing st [.completion okEntry]
     hstate s 0 = st ∧ (hctx s 0).out = .completion okEntry :: [] ∧ hDiscards s 0 = false ∧ 1 ≤ cqRoom s 0 ∧
       cqRoom (wr (HST_CQTAIL_TAIL 0) 15 s) 0 = 0) ∧
    (∀ e ∈ [anEvent, extEvent], let s := ringing hRun [.event e]
     (hctx s 0).out = .event e :: [] ∧ (if e.ext then 2 else 1) ≤ cqRoom s 0 ∧
       cqRoom (wr (HST_CQTAIL_TAIL 0) 15 s) 0 < (if e.ext then 2 else 1)) ∧
    (let s := wr (HST_CQTAIL_TAIL 0) 14 (ringing hRun [.event extEvent])
     cqRoom s 0 = 1 ∧ cqRoom s 0 < (if extEvent.ext then 2 else 1)) ∧
    (let s := ringing hDraining [.event anEvent]
     hstate s 0 = hDraining ∧ rd s (HST_STAT_ERRCODE 0) = 0) := by decide +kernel

theorem wit_HostRings_coalescing : ∀ ev : Bool, let s := coalescing ev
    (if ev then (hctx s 0).irqEAt else (hctx s 0).irqCAt) = some 2 ∧ rd s (HST_IRQ_COAL_US 0) ≠ 0 ∧
      (if ev then rdB s (HST_IRQ_EEN 0) else rdB s (HST_IRQ_CEN 0)) = true := by decide

theorem wit_ContextsComeAndGo_attach : (∀ st ∈ [DevState.setup, .run], let s : State := { ringing hOff [] with dev := st }
      Live s ∧ hstate s 0 = hOff ∧ rd s (HST_SQBASE_LO_A 0) % 4096 = 0 ∧ rd s (HST_CQBASE_LO_A 0) % 4096 = 0) ∧
    (∀ l ∈ [4, 12], let s := wr (HST_RING_SQ_LOG 0) l (wr (HST_RING_CQ_LOG 0) l (ringing hOff []))
     4 ≤ rd s (HST_RING_SQ_LOG 0) ∧ rd s (HST_RING_SQ_LOG 0) ≤ 12 ∧ 4 ≤ rd s (HST_RING_CQ_LOG 0) ∧ rd s (HST_RING_CQ_LOG 0) ≤ 12) ∧
    (rd (wr (HST_RING_SQ_LOG 0) 3 (ringing hOff [])) (HST_RING_SQ_LOG 0) < 4 ∧
      12 < rd (wr (HST_RING_CQ_LOG 0) 13 (ringing hOff [])) (HST_RING_CQ_LOG 0)) ∧
    (hstate (ringing hDraining []) 0 ≠ hRun ∧ hstate (ringing hDraining []) 0 ≠ hOff) := by
  unfold Live; decide

/-- A descriptor that failed its checks. -/
def badItem : SubItem := { cmd := none, bad := some { okEntry with status := .badDesc } }
/-- The device of `ringing` with a command and a failed descriptor in the submission flow of context 0. -/
def queued (state : Nat) : State :=
  { ringing state [] with ctxs := [(0, { sub := [{ cmd := some (hostCmd .nop [] []) }, badItem] })] }

theorem wit_ContextsComeAndGo_detach : (∀ st ∈ [hRun, hError], hstate (queued st) 0 = st ∧ rd (queued st) (HST_STAT_ERRCODE 0) = 0) ∧
    (∀ i ∈ (hctx (queued hRun) 0).sub, ∀ c, i.cmd = some c → c.ctx = (0 : CtxIx).val ∧ c.mirrored = false) ∧
    (((hctx (queued hRun) 0).sub).filter fun i => i.cmd.isSome || i.bad.isSome).length = 2 ∧
    (hstate (ringing hDraining []) 0 = hDraining ∧ rd (ringing hDraining []) (HST_STAT_INFLIGHT 0) = 0) ∧
    (let a := acc .deblock [] []
     a ∈ (due .deblock [] [] live).accepted ∧ a.cmd.opc.timed = true) := by
  refine ⟨by decide, ?_, by decide, by decide, by decide⟩
  intro i h c e
  have h' : i = { cmd := some (hostCmd .nop [] []) } ∨ i = badItem := by
    have : (hctx (queued hRun) 0).sub = [{ cmd := some (hostCmd .nop [] []) }, badItem] := rfl
    simpa [this] using h
  rcases h' with rfl | rfl
  · injection e with e; subst e; decide
  · cases e

/-- A device with events of group 2 waiting, and a reserve of the size given. -/
def eventful (q : List DevEvent) (n : Nat) : State :=
  { live with fmn := { live.fmn with evq := [(2, { queue := q, reserve := List.replicate n anEvent })] } }
/-- A batch of 10 bytes for the mark given. -/
def batchAt (m : Tick) : Batch := { mark := m, order := m.toNat, body := List.replicate 10 0, ctx := 0, tag := 7 }

theorem wit_FlowsRelease_merged : let q := kget ({} : EventFlow) (eventful [anEvent] 0).fmn.evq 2
    ∃ x ∈ q.queue ++ q.reserve, x.ecode = anEvent.ecode ∧ x.data = anEvent.data := ⟨anEvent, by decide⟩

theorem wit_FlowsRelease : (∀ n ∈ [0, 63], let q := kget ({} : EventFlow) (eventful [] n).fmn.evq 2
      (∀ x ∈ q.queue ++ q.reserve, ¬ (x.ecode = 0x0302 ∧ x.data = anEvent.data)) ∧ q.reserve.length < 64) ∧
    (let q := kget ({} : EventFlow) (eventful [] 63).fmn.evq 2
     64 ≤ (placeEvent { anEvent with ecode := 0x0302 } q).reserve.length ∧ q.raised = false) ∧
    (kget ({} : EventFlow) (eventful [anEvent] 1).fmn.evq 2).queue = anEvent :: [] ∧
    (let s := wrBit (HST_EVMASK_GROUP 0) 2 true (ringing hRun [])
     (hstate s 0 == hRun && rdBit s (HST_EVMASK_GROUP 0) 2) = true) ∧
    (let s : State := { ringing hRun [] with ctxs := [(0, { sub := [badItem] })] }
     (hctx s 0).sub = badItem :: [] ∧ badItem.cmd = none ∧ badItem.bad = some { okEntry with status := .badDesc } ∧ hDiscards s 0 = false) ∧
    (∀ l ∈ [[batchAt 5, batchAt 4], [batchAt 4, batchAt 5]], let s : State := { live with batches := l }
     (s.batches.filter fun b => decide (b.staged < b.body.length)) = l) := by decide

/-- A device whose context 0 may use the classes given, with a command at the head of its submission flow. -/
def submitted (o : Opcode) (classes : Nat) : State :=
  let s := wr (HST_STAT_STATE 0) hRun (wr (HST_PERM_CLASS 0) classes live)
  { s with ctxs := [(0, { sub := [{ cmd := some { hostCmd o [] [] with dlv := 1000 } }] })] }

theorem wit_HostAdmission_denied : let s := submitted .cellForce 0
    dead s = false ∧ (hctx s 0).sub = [{ cmd := some { hostCmd .cellForce [] [] with dlv := 1000 } }] ∧ dueHost s .cellForce 0 7 = none ∧
      (hostCmd .cellForce [] []).ctx = (0 : CtxIx).val ∧ Opcode.cellForce.cls = some 4 ∧ rdBit s (HST_PERM_CLASS 0) 4 = false ∧
      hDiscards s 0 = false ∧ (hostCmd .cellForce [] []).mirrored = false := by decide

theorem wit_HostAdmission_slice : fld (List.replicate 8 (0 : Byte)) 4 0 32 + 0 ≤ 2 ^ 26 := by decide

theorem wit_HostAdmission_accepted : let s := submitted .nop 0xFFF
    let c : HostCmd := { hostCmd .nop [] [] with dlv := 1000 }
    let s1 := flowReleased 0 (modHctx 0 (fun k => { k with sub := [] }) { s with sent := [] })
    Live s ∧ (hctx s 0).sub = [{ cmd := some c }] ∧ dueHost s .nop 0 7 = none ∧ Admissible s1 c := by
  refine ⟨rfl, rfl, by decide, ?_, ?_, ?_, by decide, by decide, ?_, ?_, by decide, by decide, by decide, ?_⟩
  · intro k h; cases h
  · intro h; exact absurd h (by decide)
  · intro _; rfl
  · intro h; cases h
  · intro h; cases h
  · intro h; cases h

/-- Every opcode's row has a command that is due. -/
theorem wit_DueRow : (∀ o : Opcode, o ∈ [Opcode.nop, .cellForce, .cellUnforce, .varForce, .varUnforce, .progStop, .progStart, .progChange,
      .snapRead, .ledgerFetch, .cellMbx, .progLoad, .cellFw, .imgSlice, .imgFinish, .attest, .switchover, .deblock, .blockOrderly, .block,
      .blockAck, .laneStart, .laneStop, .rateChange] → DueRow (due o [] [] live) o 0 7 (acc o [] [])) := by
  intro o h
  revert h
  cases o <;> intro h <;> exact ⟨rfl, by decide, by decide, rfl, by decide⟩

/-- The device with the program of task 0 in the state given and an image staged or not. -/
def programmed (o : Opcode) (param : List Byte) (p : ProgState) (staged : Option ProgImage) : State :=
  due o param [] { live with bench := { live.bench with pstate := p, image := some program, staged := staged } }
/-- The program with a RETAIN segment. -/
def retaining : ProgImage := { program with tasks := [{ taskOf false 2 with rseg := 3 }] }

theorem wit_ForcesAndPrograms_forces : (cell (due .cellForce [] [] live) 0).ent.avail ≠ .faulted ∧
    (cell (due .cellForce [] [] live) 0).ent.avail ≠ .bypassed ∧
    (∀ v ∈ [Avail.faulted, .bypassed], (cell (due .cellForce [] [] (oneCell { ent := { avail := v } })) 0).ent.avail = v) ∧
    DueRow (due .cellForce [] [] (oneCell { ent := { avail := .faulted } })) .cellForce 0 7 (acc .cellForce [] []) ∧
    fld (acc .cellUnforce [0xFF, 0xFF] []).cmd.param 0 0 16 = 0xFFFF ∧ fld (acc .cellUnforce [0xFE, 0xFF] []).cmd.param 0 0 16 ≠ 0xFFFF :=
  ⟨by decide, by decide, by decide, ⟨rfl, by decide, by decide, rfl, by decide⟩, by decide, by decide⟩

theorem wit_ForcesAndPrograms_programs :
    (DueRow (programmed .progStart [] .stopped none) .progStart 0 7 (acc .progStart [] []) ∧
      (programmed .progStart [] .stopped none).closeDone = some (programmed .progStart [] .stopped none).tick ∧
      (programmed .progStart [] .stopped none).bench.pstate = .stopped ∧
      (programmed .progStart [] .stopped none).bench.staged.or (programmed .progStart [] .stopped none).bench.image = some program ∧
      fldB (acc .progStart [] []).cmd.param 0 0 = false) ∧
    (fldB (acc .progStart [1] []).cmd.param 0 0 = true ∧
      ((segsOf retaining).mergeSort.find? fun g => (retainCopy (programmed .progStart [1] .stopped (some retaining)) retaining g).isNone) = some 3 ∧
      (programmed .progStart [1] .stopped (some retaining)).bench.staged.or (some program) = some retaining) ∧
    (DueRow (programmed .progChange [] .running (some retaining)) .progChange 0 7 (acc .progChange [] []) ∧
      (programmed .progChange [] .running (some retaining)).bench.pstate = .running ∧
      (programmed .progChange [] .running (some retaining)).bench.staged = some retaining) ∧
    (programmed .progChange [] .stopped none).bench.pstate ≠ .running ∧
    (∀ x, live.bench.changeTo = some x → x.2.2 ≠ (acc .progStop [] []).order) :=
  ⟨⟨⟨rfl, by decide, by decide, rfl, by decide⟩, by decide, rfl, rfl, by decide⟩, ⟨by decide, by decide +kernel, rfl⟩,
    ⟨⟨rfl, by decide, by decide, rfl, by decide⟩, rfl, rfl⟩, by decide, by intro x h; cases h⟩

theorem wit_ConverterCommands_states : rdB live CLK_STATUS_BYPASS = false ∧ live.fcl.markReacted = false ∧ follows live = false ∧
    (deblockFault toDeblock = 0 ∧ deblockFault (due .deblock [] [] live) ≠ 0 ∧ DueRow toDeblock .deblock 0 7 (acc .deblock [] [])) ∧
    (∀ c o, (c, o) ∈ [(ConvState.deblocked, Opcode.blockOrderly), (.ready, .block), (.dormant, .block), (.blocked, .blockAck),
        (.tripped, .laneStop), (.deblocked, .laneStop), (.ready, .laneStart), (.dormant, .rateChange)] →
      DueRow (due o [] [] { live with conv := c }) o 0 7 (acc o [] [])) ∧
    blockLatched (due .blockAck [] [] { live with conv := .blocked }) = false ∧
    blockLatched (setLatched 3 true { live with fcl := { live.fcl with latSev := [(3, 4)] } }) = true := by
  refine ⟨by decide, rfl, by decide, ⟨by decide, by decide, ⟨rfl, by decide, by decide, rfl, by decide⟩⟩, ?_, by decide, by decide⟩
  intro c o h
  simp only [List.mem_cons, Prod.mk.injEq, List.mem_nil_iff, or_false] at h
  obtain ⟨rfl, rfl⟩ | ⟨rfl, rfl⟩ | ⟨rfl, rfl⟩ | ⟨rfl, rfl⟩ | ⟨rfl, rfl⟩ | ⟨rfl, rfl⟩ | ⟨rfl, rfl⟩ | ⟨rfl, rfl⟩ := h <;>
    exact ⟨rfl, by decide, by decide, rfl, by decide⟩

/-- A standby device with a command of its own left from the time it was active. -/
def following (o : Opcode) : State := due o [] [] { live with role := .standby, conv := .ready, lanesOn := true }

theorem wit_ConverterCommands_follows : ∀ o, o ∈ [Opcode.deblock, .blockOrderly, .block, .blockAck, .laneStart, .laneStop, .rateChange] →
    follows (following o) = true ∧ DueRow (following o) o 0 7 (acc o [] []) := by
  intro o _
  cases o <;> exact ⟨by decide, rfl, by decide, by decide, rfl, by decide⟩

/-- A dormant device whose LANE_START is due and whose lane 0 is enabled. -/
def starting : State :=
  let s := wrB (LNK_CTRL_EN 0) true (due .laneStart [] [] live)
  { s with numChange := some { kind := .laneStart, lastOld := 0, switchAt := none, ctx := 0 } }

theorem wit_ConverterCommands_lane_start : DueRow starting .laneStart 0 7 (acc .laneStart [] []) ∧ starting.conv = .dormant ∧
    starting.litAt = none ∧ laneEn starting 0 = true ∧ laneEn starting 1 = false ∧ starting.numChange.isSome = true ∧
    ({ starting with litAt := some 0 } : State).litAt.isSome = true :=
  ⟨⟨rfl, by decide, by decide, rfl, by decide⟩, rfl, rfl, by decide, by decide, rfl, rfl⟩

theorem wit_ConverterCommands_lane_stop : let s : State := due .laneStop [] [] { live with conv := .tripped }
    (∀ l o, o ∈ (lane s l).waiting ++ (lane s l).out.map (·.op) → o.owner ≠ .host 0) ∧ ∀ j, s.fwJob = some j → j.order ≠ 0 :=
  ⟨fun l o h => absurd h (by
    have e : lane (due .laneStop [] [] { live with conv := .tripped }) l = {} := rfl
    rw [e]; simp), fun j h => by cases h⟩

/-- A rate change of the kind given, accepted and not begun. -/
def rateAsked (param : List Byte) (k : NumKind) (c : ConvState) : State :=
  due .rateChange param [] { live with conv := c, watch := k == .rateToFull, lanesOn := true
                                       numChange := some { kind := k, lastOld := 0, switchAt := none, ctx := 0 } }
/-- A device with a SWITCHOVER whose tick was two ticks ago, in the role given. -/
def switched (r : Role) : State := { due .switchover [] [] { live with role := r } with tick := 2 }

theorem wit_ConverterCommands_rate : (DueRow (rateAsked [1] .rateToWatch .ready) .rateChange 0 7 (acc .rateChange [1] []) ∧
      fldB (acc .rateChange [1] []).cmd.param 0 0 = true ∧ (rateAsked [1] .rateToWatch .ready).numChange.isSome = true ∧
      (rateAsked [1] .rateToWatch .ready).conv = .ready ∧ follows (rateAsked [1] .rateToWatch .ready) = false) ∧
    (DueRow (rateAsked [] .rateToFull .watch) .rateChange 0 7 (acc .rateChange [] []) ∧ (rateAsked [] .rateToFull .watch).conv = .watch ∧
      fldB (acc .rateChange [] []).cmd.param 0 0 = false ∧ rdB (rateAsked [] .rateToFull .watch) CLK_STATUS_BYPASS = false) ∧
    (let s := rateAsked [1] .rateToWatch .ready
     rateDelay { s with markAt := 40000 } 40000 = 0 ∧ 0 < rateDelay s s.markAt) :=
  ⟨⟨⟨rfl, by decide, by decide, rfl, by decide⟩, by decide, rfl, rfl, by decide⟩,
    ⟨⟨rfl, by decide, by decide, rfl, by decide⟩, rfl, by decide, by decide⟩, by decide, by decide⟩

theorem wit_ConverterCommands_switchover : (DueRow (switched .standby) .switchover 0 7 (acc .switchover [] []) ∧
      follows (switched .standby) = true ∧ 2 ≤ tickDiff (switched .standby).tick 0 ∧
      tickDiff ({ switched .standby with tick := 1 } : State).tick 0 < 2) ∧
    (DueRow (switched .active) .switchover 0 7 (acc .switchover [] []) ∧ follows (switched .active) = false ∧
      (switched .active).dpx.released = false ∧ (switched .active).role = .active ∧
      ({ switched .active with dpx := { live.dpx with released := true } } : State).dpx.released = true ∧ (switched .solo).role ≠ .active) :=
  ⟨⟨⟨rfl, by decide, by decide, rfl, by decide⟩, by decide, by decide, by decide⟩,
    ⟨rfl, by decide, by decide, rfl, by decide⟩, by decide, rfl, rfl, rfl, by decide⟩

/-- A segment of no samples. -/
def segment (isDone : Bool) : LedgerSeg :=
  { segid := 0, unit := 0, stream := true, rCond := true, rFault := false, rHost := false, last := 0, preact := 0, sampSz := 0, tstamp := 0
    ttick := 0, first := 0, ctver := 0, mode := .dense, watch := false, samples := [], done := isDone, reserved := 64 }
/-- A fetch of segment 0 with the length and RELEASE given. -/
def fetching (l : Nat) (release : Byte) (segs : List LedgerSeg) : State :=
  let c : HostCmd := { hostCmd .ledgerFetch [0, 0, release] [] with len := l }
  wr (HST_STAT_STATE 0) hRun { live with accepted := [{ cmd := c, tick := 0, order := 0 }], ledger := { live.ledger with segs := segs } }

theorem wit_ReadsAndCellServices : ((due .snapRead [] [] live).closeDone = some (due .snapRead [] [] live).tick) ∧
    DueRow (fetching 64 1 [segment true]) .ledgerFetch 0 7
      { cmd := { hostCmd .ledgerFetch [0, 0, 1] [] with len := 64 }, tick := 0, order := 0 } ∧
    ((fetching 64 0 [segment true]).ledger.segs.find? fun g => g.segid.toNat == 0) = some (segment true) ∧ (segment true).done = true ∧
    (segment false).done = false ∧ (0 : Nat) ∉ live.pwr.dramHeld ∧ live.ledger.segs = [] ∧
    fldB (hostCmd .ledgerFetch [0, 0, 1] []).param 2 0 = true ∧ fldB (hostCmd .ledgerFetch [0, 0, 0] []).param 2 0 = false ∧
    (DueRow (due .cellMbx [] [] lit) .cellMbx 0 7 (acc .cellMbx [] []) ∧ follows (due .cellMbx [] [] lit) = false ∧
      commands (due .cellMbx [] [] lit) = true ∧ (due .cellMbx [] [] lit).lanesOn = true) ∧ (due .cellMbx [] [] live).lanesOn = false ∧
    (DueRow (following .cellMbx) .cellMbx 0 7 (acc .cellMbx [] []) ∧ follows (following .cellMbx) = true) :=
  ⟨by decide, ⟨rfl, by decide, by decide, rfl, by decide⟩, by decide, rfl, rfl, by decide, rfl, by decide, by decide,
    ⟨⟨rfl, by decide, by decide, rfl, by decide⟩, by decide, by decide, rfl⟩, rfl, ⟨rfl, by decide, by decide, rfl, by decide⟩, by decide⟩

/-- A device that holds the key and has accepted a command with an image in its buffer. -/
def imaging (o : Opcode) (param image : List Byte) : State := due o param image (signed live)
/-- The finish of an image of a kind that has been staged. -/
def finishing (kind : Byte) (image : List Byte) : State :=
  let s := imaging .imgFinish [kind] []
  { s with sec := { s.sec with stage := [(kind.toNat, image)] } }

theorem wit_ImageCommands_program : let s := imaging .progLoad [] programImage
    engineTurn s (acc .progLoad [] programImage) = true ∧ programRuns s = false ∧
      (let s1 := engineOn { s with sent := [] }
       verifyReason s1 kProgram programImage = 0 ∧
         (parseImage (split s) (infoOf programImage).hash (infoOf programImage).epoch (imgBody programImage)).isSome = true) := by
  decide +kernel

theorem wit_ImageCommands_cell : let s := imaging .cellFw [] cellImage
    s.fwJob = none ∧ engineTurn s (acc .cellFw [] cellImage) = true ∧ follows s = false ∧
      verifyReason (engineOn { s with sent := [] }) kCell cellImage = 0 := by decide +kernel

theorem wit_ImageCommands_firmware : let s := finishing 1 firmwareImage
    engineTurn s (acc .imgFinish [1] []) = true ∧ kget [] s.sec.stage 1 = firmwareImage ∧
      verifyReason (engineOn { s with sent := [] }) 1 firmwareImage = 0 ∧ 1 ≠ kRevocation := by decide +kernel

theorem wit_ImageCommands_revocation : let s := finishing 3 revocationImage
    engineTurn s (acc .imgFinish [3] []) = true ∧ kget [] s.sec.stage 3 = revocationImage ∧
      (let s1 := engineOn { s with sent := [] }
       verifyReason s1 3 revocationImage = 0 ∧ (revoke revocationImage s1).1 = true) := by decide +kernel

theorem wit_ImageCommands_rejected : engineTurn (imaging .progLoad [] []) (acc .progLoad [] []) = true ∧
    verifyReason (engineOn { imaging .progLoad [] [] with sent := [] }) kProgram [] ≠ 0 ∧
    verifyReason (engineOn { imaging .cellFw [] [] with sent := [] }) kCell [] ≠ 0 ∧
    verifyReason (engineOn { finishing 1 [] with sent := [] }) 1 [] ≠ 0 ∧
    engineTurn (imaging .attest [] []) (acc .attest [] []) = true := by decide +kernel

/-- The device of `imaging` with a running program of the number given. -/
def replacing (id : Nat) : State :=
  let s := imaging .progLoad [] programImage
  { s with bench := { s.bench with pstate := .running, image := some { program with imageId := BitVec.ofNat 64 id } } }

theorem wit_ImageCommands_follows : ∀ id ∈ [0, 5], programRuns (replacing id) = true ∧
    engineTurn (replacing id) (acc .progLoad [] programImage) = true ∧
    verifyReason (engineOn { replacing id with sent := [] }) kProgram programImage = 0 ∧
    ((parseImage (split (replacing id)) (infoOf programImage).hash (infoOf programImage).epoch (imgBody programImage)).any fun img =>
      (img.predId == BitVec.ofNat 64 id) == (id == 0)) = true := by decide +kernel

theorem wit_ImageCommands_waits : let a : Accepted := { acc .progLoad [] [] with order := 1 }
    let s := due .attest [] [] live
    let s : State := { s with accepted := s.accepted ++ [a], accCount := 2 }
    DueRow s .progLoad 0 7 a ∧ engineTurn s a = false := ⟨⟨rfl, by decide, by decide, rfl, by decide⟩, by decide⟩

theorem wit_ImageCommands_standby : let s := imaging .cellFw [] cellImage
    let s : State := { s with role := .standby }
    DueRow s .cellFw 0 7 (acc .cellFw [] cellImage) ∧ s.fwJob = none ∧ follows s = true ∧ engineTurn s (acc .cellFw [] cellImage) = true :=
  ⟨⟨rfl, by decide +kernel, by decide +kernel, rfl, by decide⟩, rfl, by decide, by decide +kernel⟩

/-! Register writes, captures, security and boot. -/

/-- One register of each kind of write: plain, out of range with and without WRERR, counter, ST; one in a domain that is off. -/
theorem wit_RegisterWrites :
    (∃ r, regSpecAt 0x2004 = some r ∧ Writable 0x2004 live ∧ ownWrite 0x2004 1 = none ∧
      (∀ x, arrayWrite r 0x2004 1 true x = plainWrite r 0x2004 1 x) ∧
      outOfRange r 1 = false ∧ isCounter r = false ∧ ∀ f ∈ r.fields, f.acc ≠ .st) ∧
    (∃ r, regSpecAt 0x21024 = some r ∧ Writable 0x21024 live ∧ ownWrite 0x21024 0 = none ∧
      (∀ x, arrayWrite r 0x21024 0 true x = plainWrite r 0x21024 0 x) ∧ outOfRange r 0 = true ∧ (wrerrOf 0x21024).isSome) ∧
    (∃ r, regSpecAt 0x14800 = some r ∧ Writable 0x14800 live ∧ ownWrite 0x14800 0 = none ∧
      (∀ x, arrayWrite r 0x14800 0 true x = plainWrite r 0x14800 0 x) ∧ outOfRange r 0 = true ∧ wrerrOf 0x14800 = none) ∧
    (∃ r, regSpecAt 0x4018 = some r ∧ Writable 0x4018 live ∧ ownWrite 0x4018 0 = none ∧
      (∀ x, arrayWrite r 0x4018 0 true x = plainWrite r 0x4018 0 x) ∧ outOfRange r 0 = false ∧ isCounter r = true) ∧
    (∃ r, regSpecAt 0x22004 = some r ∧ Writable 0x22004 live ∧ ownWrite 0x22004 0 = none ∧
      (∀ x, arrayWrite r 0x22004 0 true x = plainWrite r 0x22004 0 x) ∧
      outOfRange r 0 = false ∧ isCounter r = false ∧ ∃ f ∈ r.fields, f.acc = .st) ∧
    (0xE : BitVec 4) ≠ 0xF ∧ regSpecAt 0x78003 = none ∧
    (∃ r, regSpecAt 0x20000 = some r ∧ Live (wrBit PWR_DOMSTAT_ON 11 false live) ∧
      answers (wrBit PWR_DOMSTAT_ON 11 false live) 0x20000 = true ∧
      domainOn (wrBit PWR_DOMSTAT_ON 11 false live) (domainOf 0x20000) = false) := by
  refine ⟨⟨_, rfl, ⟨rfl, by decide, by decide⟩, by decide, fun x => by simp [arrayWrite], by decide, by decide, by decide⟩,
    ⟨_, rfl, ⟨rfl, by decide, by decide⟩, by decide, fun x => by simp [arrayWrite], by decide, by decide⟩,
    ⟨_, rfl, ⟨rfl, by decide, by decide⟩, by decide, fun x => by simp [arrayWrite], by decide, by decide⟩,
    ⟨_, rfl, ⟨rfl, by decide, by decide⟩, by decide, fun x => by simp [arrayWrite], by decide, by decide⟩,
    ⟨_, rfl, ⟨rfl, by decide, by decide⟩, by decide, fun x => by simp [arrayWrite], by decide, by decide, by decide⟩,
    by decide, by decide, ⟨_, rfl, rfl, by decide, by decide⟩⟩

theorem wit_RegisterWrites_reach : (0x78000 ≤ 0x79000 ∧ 0x79000 < 0x79004 ∧ (regSpecAt 0x79000).isSome = true ∧ Writable 0x79000 live) ∧
    (0x7801C % 0x100 = 0x1C ∧ (regSpecAt 0x7801C).isSome = true ∧ Writable 0x7801C live ∧ (wrerrOf 0x7801C).isSome = true) ∧
    (∃ r, regSpecAt 0x78014 = some r ∧ outOfRange r 0 = false) ∧
    (∃ r, regSpecAt 0x4024 = some r ∧ Writable 0x4024 live ∧ outOfRange r 1 = false ∧ (ownWrite 0x4024 1).isSome = true) ∧
    (∃ r, regSpecAt 0x2004 = some r ∧ outOfRange r 1 = false ∧ (ownWrite 0x2004 1).isSome = false) ∧
    regSpecAt 0x77FFC = none ∧ 0x79004 % 4 = 0 :=
  ⟨⟨by decide, by decide, by decide, rfl, by decide, by decide⟩, ⟨by decide, by decide, ⟨rfl, by decide, by decide⟩, by decide⟩, ⟨_, rfl, by decide⟩,
    ⟨_, rfl, ⟨rfl, by decide, by decide⟩, by decide, by decide⟩, ⟨_, rfl, by decide, by decide⟩, by decide, by decide⟩

theorem wit_CapturesAndRun : (∀ a ∈ [0x21080, 0x38004, 0x40000, 0x58020, 0x68010, 0x70014, 0x10],
      dead live = false ∧ answers live a = true ∧ domainOn live (domainOf a) = true) ∧
    ({ live with fcl := { live.fcl with first := some {} } } : State).fcl.first = some {} ∧ (1 : Word).getLsbD 0 = true ∧ setup.dev = .setup ∧
    Writable 0x10 setup ∧ live.dev ≠ .setup ∧ (2 : Word).getLsbD 0 = false :=
  ⟨by decide, rfl, by decide, rfl, ⟨rfl, by decide, by decide⟩, by decide, by decide⟩

/-- A device in SETUP burning the slot of key data 4. -/
def burning : State := { setup with sec := { setup.sec with burning := some (4, []) } }

theorem wit_FusesAndFloors : Writable 0x88008 setup ∧ Writable 0x8800C live ∧ Writable 0x8800C setup ∧
    ((0xC304 : Word).toNat / 256 % 256 = 0xC3 ∧ setup.dev = .setup ∧ 4 ≤ (0xC304 : Word).toNat % 8 ∧
      setup.sec.prog.getLsbD ((0xC304 : Word).toNat % 8) = false ∧ setup.sec.burning = none ∧ (0xC303 : Word).toNat % 8 < 4 ∧
      (0xC404 : Word).toNat / 256 % 256 ≠ 0xC3) ∧
    (burning.sec.burning = some (4, []) ∧ Live burning) ∧ (∃ g ∈ [18, 19, 20], (0x40000 : Word).getLsbD g = true) ∧
    (let s : State := { live with sec := { live.sec with fw := some { epoch := 2 } } }
     (0x40000 : Word).getLsbD 18 = true ∧ runningEpoch s kFirmware = some 2 ∧ (0x40000 : Word).getLsbD 19 = false) :=
  ⟨⟨rfl, by decide, by decide⟩, ⟨rfl, by decide, by decide⟩, ⟨rfl, by decide, by decide⟩, by decide, ⟨rfl, rfl⟩, ⟨18, by decide⟩, by decide⟩

/-- A device in BOOT whose firmware copy A is the image given. -/
def booting (image : List Byte) : State :=
  { signed State.reset with sec := { (signed State.reset).sec with flash := [(0, { image := image })] } }

theorem wit_BootSteps_firmware : let s := booting firmwareImage
    let s1 := wr PWR_RAILSTAT_GOOD 0x3FF (showIdentity { s with sent := [] })
    s.dev = .boot ∧ s.sec.booted = false ∧ s.sec.fw = none ∧ rd s SEC_BOOTSTAT_CAUSE = 0 ∧
      (bootFirmware (copiesOf s1 kFirmware) s1).1 = some (false, firmwareImage) := by decide +kernel

theorem wit_BootSteps_none : let s := booting []
    let s1 := wr PWR_RAILSTAT_GOOD 0x3FF (showIdentity { s with sent := [] })
    (bootFirmware (copiesOf s1 kFirmware) s1).1 = none := by decide +kernel

theorem wit_BootSteps_start : (∀ valid : Bool, let s := wrB SEC_BOOTSTAT_BDVALID valid { booting [] with sec := { (booting []).sec with booted := true } }
      s.dev = .boot ∧ s.sec.booted = true ∧ rdB s SEC_BOOTSTAT_BDVALID = valid) ∧
    (let s : State := { State.reset with dev := .reset, pwr := { State.reset.pwr with supplyReset := true } }
     s.dev = .reset ∧ rdB s GLB_STRAP_TEST_EN = false ∧ s.pwr.supplyReset = true) := by decide

theorem wit_BootSteps_flash : let w : FlashWrite := { kind := 1, copyB := true, image := [], order := 0 }
    let s := due .imgFinish [1] [] live
    let s : State := { s with sec := { s.sec with writing := [w] } }
    Live s ∧ s.sec.writing = w :: [] ∧ (s.accepted.find? fun x => x.order == w.order) = some (acc .imgFinish [1] []) ∧
      (acc .imgFinish [1] []).cmd.mirrored = false ∧ hDiscards s (acc .imgFinish [1] []).cmd.ctx = false := ⟨rfl, rfl, by decide, rfl, by decide⟩

/-! Well-formedness: a term each check refuses. -/

theorem test_descriptor_length : (Instr.descriptorFetch 0 (List.replicate 63 0) []).wellFormed = false ∧
    (Instr.descriptorFetch 0 (List.replicate 64 0) []).wellFormed = true ∧
    exec (.descriptorFetch 0 (List.replicate 63 0) []) live = .fault .illFormed := ⟨by decide, by decide, rfl⟩

/-! Check values and worked examples of the spec. -/

/-- The nine ASCII bytes "123456789". -/
def digits : List Byte := [0x31, 0x32, 0x33, 0x34, 0x35, 0x36, 0x37, 0x38, 0x39]

/-- The check values of R139, R357 and R386. -/
theorem test_crc_check_values : crc crc8 digits = 0xD0 ∧ crc crc16 digits = 0x906E ∧ crc crc32 digits = 0xCBF43926 ∧
    crc crc32c digits = 0xE3069283 ∧ crc crcSafe digits = 0x1697D06A ∧ crc crc64 digits = 0x995DC9BBDF1939FA := by decide +kernel

/-- The header of the decoded Dense frame at the end of chapter 05. -/
theorem test_decoded_header :
    (headerBytes { ftype := 1, lane := 5, mode := .dense, watch := false, etick := 2500002, cstate := 3, planVer := 23 }
      { slot := 0x11, op := 2, tag := 0x5C, arg := 2500010 }).take 22 =
      [0x01, 0x05, 0x40, 0x01, 0xA2, 0x25, 0x26, 0x00, 0x03, 0x00, 0x17, 0x00, 0x11, 0x02, 0x00, 0x5C, 0xAA, 0x25, 0x26, 0x00, 0, 0] := by
  decide +kernel

/-- Its slots 17, 18 and 19. -/
theorem test_decoded_slots :
    slotHead { stateA := 3, stateB := 8, instA := 2113, dtClass := 1, seq := 0x9E } = [0x83, 0x41, 0x48, 0xFF, 0x3F, 0x00, 0x9E] ∧
    slotHead { stateA := 3, stateB := 1, instA := 610, dtClass := 1, instB := 4360, seq := 0x33 } =
      [0x13, 0x62, 0x42, 0x08, 0x11, 0x00, 0x33] ∧
    slotHead { stateA := 8, stateB := 8, instA := 16383, dtClass := 1, seq := 7 } = [0x88, 0xFF, 0x7F, 0xFF, 0x3F, 0x00, 0x07] := by
  decide +kernel

/-- The launch check of the worked example of chapter 02: MAXFLIGHT 400 allows launch points up to 5,208 in Dense. -/
theorem test_launch_check : launchFits .dense 4800 400 = true ∧ launchFits .dense 5208 400 = true ∧
    launchFits .dense 5209 400 = false ∧ launchFits .dense 5300 400 = false := by decide

/-- The tick number of the worked example of chapter 03, in Dense. -/
theorem test_tick_number : tickAt (wr TCK_CFG_MODE 1 live) 190000000000000000 = 0xC8403000 := by decide

end Sys2Proof.Tests
end

section
/-! The queue of commands: no register write reaches it (an effect of a command never does: `cmdAlways` puts the queue back).
One lemma per operation that a register write calls, in the order in which they call each other. -/

namespace Sys2Proof.Machine

set_option Elab.async false

/-! Loops, folds and raised sources. -/

theorem forUpto_pending {n : Nat} {s : State} {f : State → Nat → State} (h : ∀ s k, (f s k).pending = s.pending) :
    (forUpto n s f).pending = s.pending := forUpto_keep State.pending n s f h

theorem foldl_pending {γ : Type} {l : List γ} {s : State} {f : State → γ → State} (h : ∀ s x, (f s x).pending = s.pending) :
    (l.foldl f s).pending = s.pending := foldl_keep State.pending l s f h

theorem ite_pending {c : Prop} [Decidable c] {a b : State} {q : List Instr} (ha : a.pending = q) (hb : b.pending = q) :
    (if c then a else b).pending = q := by
  split
  · exact ha
  · exact hb

/-- What keeps `State.base` keeps the queue. -/
theorem pending_of_base {s t : State} (h : t.base = s.base) : t.pending = s.pending := by
  have e : t.base.pending = s.base.pending := by rw [h]
  exact e

/-! Registers (R9, R600). -/

@[simp] theorem take_pending (v : Word) (f : Field) (s : State) : (take v f s).pending = s.pending := by
  simp [take]

@[simp] theorem count_pending (f : Field) (s : State) : (count f s).pending = s.pending := by
  simp [count]

@[simp] theorem wrerr_pending (a : Nat) (s : State) : (wrerr a s).pending = s.pending := by
  unfold wrerr
  split <;> simp

@[simp] theorem guarded_pending (ok : Bool) (a : Nat) (v : Word) (f : Field) (s : State) : (guarded ok a v f s).pending = s.pending := by
  simp [guarded, apply_ite State.pending]

@[simp] theorem plainWrite_pending (r : RegSpec) (a : Nat) (v : Word) (s : State) : (plainWrite r a v s).pending = s.pending := by
  simp [plainWrite, apply_ite State.pending]

/-! Power (R569 to R579). -/

@[simp] theorem modPwr_pending (f : PwrSt → PwrSt) (s : State) : (modPwr f s).pending = s.pending := by
  simp [modPwr]

@[simp] theorem request_pending (d : Nat) (s : State) : (request d s).pending = s.pending := by
  simp [request]

@[simp] theorem unrequest_pending (d : Nat) (s : State) : (unrequest d s).pending = s.pending := by
  simp [unrequest]

@[simp] theorem memRest_pending (s : State) : (memRest s).pending = s.pending := by
  simp [memRest, apply_ite State.pending]

@[simp] theorem setFeed_pending (n : Nat) (f : FeedSt) (s : State) : (setFeed n f s).pending = s.pending := by
  simp [setFeed, apply_ite State.pending]

@[simp] theorem feedJudge_pending (n : Nat) (s : State) : (feedJudge n s).pending = s.pending := by
  simp [feedJudge, apply_ite State.pending]

@[simp] theorem pwrCfgWrite_pending (v : Word) (s : State) : (pwrCfgWrite v s).pending = s.pending := by
  simp [pwrCfgWrite, apply_ite State.pending]

@[simp] theorem lpeCfgWrite_pending (v : Word) (s : State) : (lpeCfgWrite v s).pending = s.pending := by
  simp [lpeCfgWrite, apply_ite State.pending]

/-! Clocks, time and the duplex link (chapters 03 and 13). -/

@[simp] theorem sendSegments_pending (l : List (BitVec 16 × Tick × DoveRec × List Byte)) (s : State) :
    (sendSegments l s).pending = s.pending := by
  simp [sendSegments]

@[simp] theorem sendDove_pending (r : DoveRec) (s : State) : (sendDove r s).pending = s.pending := by
  simp [sendDove, apply_ite State.pending]

@[simp] theorem mirror_pending (r : DoveRec) (s : State) : (mirror r s).pending = s.pending := by
  simp [mirror, apply_ite State.pending]

@[simp] theorem mirrorFrac_pending (f : BitVec 24) (s : State) : (mirrorFrac f s).pending = s.pending := by
  simp [mirrorFrac]

@[simp] theorem commitDivider_pending (s : State) : (commitDivider s).pending = s.pending := by
  unfold commitDivider
  exact ite_pending (by simp) (ite_pending (by simp) (by simp))

@[simp] theorem releaseCommit_pending (s : State) : (releaseCommit s).pending = s.pending := by
  simp [releaseCommit, apply_ite State.pending]

@[simp] theorem clkCommit_pending (v : Word) (s : State) : (clkCommit v s).pending = s.pending := by
  simp [clkCommit, apply_ite State.pending]

@[simp] theorem clkSyncWrite_pending (v : Word) (s : State) : (clkSyncWrite v s).pending = s.pending := by
  unfold clkSyncWrite
  exact ite_pending (wrB_pending _ _ s) ((wr_pending _ _ _).trans (wr_pending _ _ s))

@[simp] theorem clkFracWrite_pending (v : Word) (s : State) : (clkFracWrite v s).pending = s.pending := by
  unfold clkFracWrite
  exact ite_pending (wrB_pending _ _ s) (ite_pending (wr_pending _ _ s) ((wrB_pending _ _ _).trans (wr_pending _ _ s)))

@[simp] theorem selectRef_pending (toB : Bool) (s : State) : (selectRef toB s).pending = s.pending := by
  simp [selectRef, apply_ite State.pending]

@[simp] theorem clkCfgWrite_pending (v : Word) (s : State) : (clkCfgWrite v s).pending = s.pending := by
  simp [clkCfgWrite, apply_ite State.pending]

@[simp] theorem setActive_pending (x : Src) (b : Bool) (s : State) : (setActive x b s).pending = s.pending := by
  simp [setActive, apply_ite State.pending]

@[simp] theorem timCfgWrite_pending (v : Word) (s : State) : (timCfgWrite v s).pending = s.pending := by
  unfold timCfgWrite
  extract_lets s1
  have h1 : s1.pending = s.pending := (take_pending _ _ _).trans ((take_pending _ _ _).trans (take_pending _ _ s))
  exact ite_pending ((setActive_pending _ _ _).trans ((wr_pending _ _ _).trans h1)) h1

@[simp] theorem timLatch_pending (s : State) : (timLatch s).pending = s.pending := by
  simp [timLatch]

@[simp] theorem setTime_pending (t : Nat) (s : State) : (setTime t s).pending = s.pending := by
  simp [setTime]

@[simp] theorem stepTime_pending (t : Nat) (s : State) : (stepTime t s).pending = s.pending := by
  simp [stepTime]

@[simp] theorem timSetGo_pending (v : Word) (s : State) : (timSetGo v s).pending = s.pending := by
  simp [timSetGo, apply_ite State.pending]

@[simp] theorem trigCtrlWrite_pending (n : Nat) (v : Word) (s : State) : (trigCtrlWrite n v s).pending = s.pending := by
  simp [trigCtrlWrite, apply_ite State.pending]

@[simp] theorem refreshTakeover_pending (s : State) : (refreshTakeover s).pending = s.pending := by
  simp [refreshTakeover]

@[simp] theorem dpxCfgWrite_pending (v : Word) (s : State) : (dpxCfgWrite v s).pending = s.pending := by
  simp [dpxCfgWrite]

/-! The fault collector and protection (chapters 12 and 14). -/

@[simp] theorem occur_pending (src : Nat) (s : State) : (occur src s).pending = s.pending := pending_of_base (within_occur src s).1

@[simp] theorem raiseSrc_pending (r : Raise) (s : State) : (raiseSrc r s).pending = s.pending := pending_of_base (raiseSrc_frame r s).1

@[simp] theorem fault_pending (x : Src) (reason detail : Nat) (s : State) : (fault x reason detail s).pending = s.pending := by
  simp [fault]

@[simp] theorem setLatched_pending (i : Nat) (b : Bool) (s : State) : (setLatched i b s).pending = s.pending := by
  simp [setLatched, apply_ite State.pending]

@[simp] theorem clearLatched_pending (i : Nat) (s : State) : (clearLatched i s).pending = s.pending := by
  simp [clearLatched, apply_ite State.pending]

@[simp] theorem fclRefresh_pending (s : State) : (fclRefresh s).pending = s.pending := by
  simp [fclRefresh, apply_ite State.pending]

@[simp] theorem fswClear_pending (high : Bool) (v : Word) (s : State) : (fswClear high v s).pending = s.pending := by
  rw [fswClear, fclRefresh_pending]
  exact forUpto_pending fun s k => by simp [apply_ite State.pending]

@[simp] theorem firstClr_pending (s : State) : (firstClr s).pending = s.pending := by
  simp [firstClr]

@[simp] theorem postEvent_pending (g : Nat) (e : DevEvent) (s : State) : (postEvent g e s).pending = s.pending := by
  simp [postEvent]

@[simp] theorem post_pending (g ecode : Nat) (data : List Byte) (s : State) : (post g ecode data s).pending = s.pending := by
  simp [post]

@[simp] theorem showRec_pending (f : Nat → Field) (r : Option FaultRec) (s : State) : (showRec f r s).pending = s.pending := by
  unfold showRec
  exact forUpto_pending fun s w => wr_pending _ _ s

@[simp] theorem fclLatch_pending (s : State) : (fclLatch s).pending = s.pending := by
  unfold fclLatch
  extract_lets s1 s2 s3
  have h2 : s2.pending = s1.pending := ite_pending rfl (wr_pending _ _ _)
  refine (forUpto_pending fun s k => showRec_pending _ _ s).trans ?_
  rw [showRec_pending, h2]
  exact wr_pending _ _ s

@[simp] theorem resetIncomplete_pending (s : State) : (resetIncomplete s).pending = s.pending := by
  simp [resetIncomplete]

@[simp] theorem prtReset_pending (v : Word) (s : State) : (prtReset v s).pending = s.pending := by
  unfold prtReset
  refine ite_pending rfl (ite_pending rfl (ite_pending ?_ rfl))
  split
  · exact ite_pending rfl (resetIncomplete_pending s)
  · exact resetIncomplete_pending s

/-! The Ledger (chapter 17). -/

@[simp] theorem showFill_pending (s : State) : (showFill s).pending = s.pending := by
  simp [showFill]

@[simp] theorem segDone_pending (g : LedgerSeg) (s : State) : (segDone g s).pending = s.pending := by
  simp [segDone]

@[simp] theorem updSegs_pending (f : LedgerSeg → LedgerSeg) (s : State) : (updSegs f s).pending = s.pending := by
  unfold updSegs
  rw [showFill_pending, foldl_pending fun s p => ?_, modLedger_pending]
  exact ite_pending (segDone_pending p.2 s) rfl

@[simp] theorem ringRestart_pending (snap : Bool) (s : State) : (ringRestart snap s).pending = s.pending := by
  simp [ringRestart]

@[simp] theorem ringsRestart_pending (s : State) : (ringsRestart s).pending = s.pending := by
  simp [ringsRestart]

@[simp] theorem cfgWrite_pending (v : Word) (s : State) : (cfgWrite v s).pending = s.pending := by
  unfold cfgWrite
  extract_lets f sd cd pool moved onS onC range s1 s2 s3
  have h1 : s1.pending = s.pending :=
    (wr_pending _ _ _).trans ((wr_pending _ _ _).trans ((wr_pending _ _ _).trans (wr_pending _ _ s)))
  have h2 : s2.pending = s.pending := (wr_pending _ _ _).trans ((wr_pending _ _ _).trans h1)
  have h3 : s3.pending = s.pending := ite_pending ((ringRestart_pending _ _).trans h2) h2
  exact ite_pending (wrB_pending _ _ s) (ite_pending ((ringRestart_pending _ _).trans h3) h3)

@[simp] theorem modTrig_pending (u : Nat) (f : TrigSt → TrigSt) (s : State) : (modTrig u f s).pending = s.pending := by
  simp [modTrig]

@[simp] theorem showArmed_pending (u : Nat) (s : State) : (showArmed u s).pending = s.pending := by
  simp [showArmed]

@[simp] theorem armUnit_pending (u : Nat) (s : State) : (armUnit u s).pending = s.pending := by
  simp [armUnit, apply_ite State.pending]

@[simp] theorem disarmUnit_pending (u : Nat) (s : State) : (disarmUnit u s).pending = s.pending := by
  simp [disarmUnit]

@[simp] theorem makeSegment_pending (u : Nat) (f : TrigFire) (host : Bool) (s : State) : (makeSegment u f host s).pending = s.pending := by
  simp [makeSegment, apply_ite State.pending]

@[simp] theorem wrapFor_pending (need n : Nat) (s : State) : (wrapFor need n s).pending = s.pending := by
  induction n generalizing s with
  | zero => rfl
  | succ n ih =>
    unfold wrapFor
    split
    · rfl
    · split
      · rfl
      · rw [ih, count_pending, modLedger_pending]

@[simp] theorem trySegment_pending (u : Nat) (f : TrigFire) (host : Bool) (s : State) :
    (trySegment u f host s).1.pending = s.pending := by
  simp [trySegment, apply_ite Prod.fst, apply_ite State.pending]

@[simp] theorem afterFire_pending (u : Nat) (s : State) : (afterFire u s).pending = s.pending := by
  simp [afterFire, apply_ite State.pending]

@[simp] theorem fireUnit_pending (u : Nat) (f : TrigFire) (host : Bool) (s : State) : (fireUnit u f host s).pending = s.pending := by
  simp [fireUnit, apply_ite State.pending]

@[simp] theorem hostFire_pending (u : Nat) (s : State) : (hostFire u s).pending = s.pending := by
  unfold hostFire
  split <;> simp

/-- A bit for each unit: what no unit's effect touches stays. -/
theorem eachUnit_pending {f : Nat → State → State} (h : ∀ u s, (f u s).pending = s.pending) (v : Word) (s : State) :
    (eachUnit f v s).pending = s.pending :=
  forUpto_pending fun s u => by simp [apply_ite State.pending, h]

@[simp] theorem ldgLatch_pending (s : State) : (ldgLatch s).pending = s.pending := by
  unfold ldgLatch
  extract_lets s1 ids s2 s3 s4
  have h1 : s1.pending = s.pending := wr_pending _ _ s
  have h2 : s2.pending = s.pending := (wr_pending _ _ _).trans ((wr_pending _ _ _).trans h1)
  have h4 : s4.pending = s.pending := (wr_pending _ _ _).trans ((wr_pending _ _ _).trans h2)
  exact (forUpto_pending fun s u => (wr_pending _ _ _).trans (wrB_pending _ _ s)).trans h4

/-! The tick, freeze and debug (chapter 02). -/

@[simp] theorem tckRefuse_pending (reason : Nat) (s : State) : (tckRefuse reason s).pending = s.pending := by
  simp [tckRefuse]

@[simp] theorem changeMode_pending (m : LaneMode) (s : State) : (changeMode m s).pending = s.pending := by
  simp [changeMode]

@[simp] theorem tckCfg_pending (v : Word) (s : State) : (tckCfg v s).pending = s.pending := by
  unfold tckCfg
  exact ite_pending (by simp) (ite_pending (ite_pending (by simp) (by simp))
    (ite_pending (by simp) (ite_pending (by simp) (ite_pending (by simp) (by simp)))))

@[simp] theorem tckLaunch_pending (v : Word) (s : State) : (tckLaunch v s).pending = s.pending := by
  simp [tckLaunch, apply_ite State.pending]

@[simp] theorem tckMaxflight_pending (v : Word) (s : State) : (tckMaxflight v s).pending = s.pending := by
  simp [tckMaxflight, apply_ite State.pending]

@[simp] theorem commitGo_pending (v : Word) (s : State) : (commitGo v s).pending = s.pending := by
  simp [commitGo, apply_ite State.pending]

@[simp] theorem debugRefuse_pending (reason : Nat) (s : State) : (debugRefuse reason s).pending = s.pending := by
  simp [debugRefuse]

@[simp] theorem tckFreeze_pending (v : Word) (s : State) : (tckFreeze v s).pending = s.pending := by
  simp [tckFreeze, apply_ite State.pending]

@[simp] theorem haltExec_pending (e : Nat) (s : State) : (haltExec e s).pending = s.pending := by
  simp [haltExec, apply_ite State.pending]

@[simp] theorem dbgHalt_pending (jtag : Bool) (v : Word) (s : State) : (dbgHalt jtag v s).pending = s.pending := by
  unfold dbgHalt
  exact (forUpto_pending fun s e => ite_pending (haltExec_pending e s) rfl).trans (ite_pending (debugRefuse_pending 5 s) rfl)

@[simp] theorem dbgResume_pending (v : Word) (s : State) : (dbgResume v s).pending = s.pending := by
  unfold dbgResume
  exact forUpto_pending fun s e => ite_pending (by simp) rfl

@[simp] theorem glbRun_pending (v : Word) (s : State) : (glbRun v s).pending = s.pending := by
  simp [glbRun, apply_ite State.pending]

/-! Measurement and the filter chains (chapters 07 and 08). -/

@[simp] theorem sdCfgWrite_pending (v : Word) (s : State) : (sdCfgWrite v s).pending = s.pending := by
  simp [sdCfgWrite, apply_ite State.pending]

@[simp] theorem sdChWrite_pending (n : Nat) (v : Word) (s : State) : (sdChWrite n v s).pending = s.pending := by
  simp [sdChWrite, apply_ite State.pending]

@[simp] theorem sarMaskWrite_pending (v : Word) (s : State) : (sarMaskWrite v s).pending = s.pending := by
  simp [sarMaskWrite]

@[simp] theorem scanStart_pending (t : Nat) (s : State) : (scanStart t s).pending = s.pending := by
  simp [scanStart]

@[simp] theorem sarTrigger_pending (s : State) : (sarTrigger s).pending = s.pending := by
  unfold sarTrigger
  split <;> simp

@[simp] theorem sarTrigWrite_pending (v : Word) (s : State) : (sarTrigWrite v s).pending = s.pending := by
  unfold sarTrigWrite
  extract_lets div ofs s1 s2
  have h1 : s1.pending = s.pending := (wrB_pending _ _ _).trans (wrB_pending _ _ s)
  have h2 : s2.pending = s.pending := (wr_pending _ _ _).trans ((wr_pending _ _ _).trans h1)
  exact ite_pending (wrB_pending _ _ s) (ite_pending ((sarTrigger_pending s2).trans h2) h2)

@[simp] theorem calErr_pending (s : State) : (calErr s).pending = s.pending := by
  simp [calErr]

@[simp] theorem calWrite_pending (v : Word) (s : State) : (calWrite v s).pending = s.pending := by
  simp [calWrite, apply_ite State.pending]

@[simp] theorem meaLatch_pending (s : State) : (meaLatch s).pending = s.pending := by
  unfold meaLatch
  extract_lets s1 s2 r s3
  have h1 : s1.pending = s.pending := wr_pending _ _ s
  have h2 : s2.pending = s.pending := (forUpto_pending fun s k => (wr_pending _ _ _).trans (wr_pending _ _ s)).trans h1
  have h3 : s3.pending = s.pending := (wr_pending _ _ _).trans ((wr_pending _ _ _).trans h2)
  exact (wr_pending _ _ _).trans ((wr_pending _ _ _).trans h3)

@[simp] theorem flcRst_pending (high : Bool) (v : Word) (s : State) : (flcRst high v s).pending = s.pending := by
  unfold flcRst
  exact forUpto_pending fun s k => ite_pending (by simp) rfl

/-! The loop engine, the level sequencer and the selector (chapters 09 to 11). -/

@[simp] theorem oscWrite_pending (d : Nat) (r : RegSpec) (a : Nat) (v : Word) (s : State) : (oscWrite d r a v s).pending = s.pending := by
  simp [oscWrite, apply_ite State.pending]

@[simp] theorem lvsLatch_pending (s : State) : (lvsLatch s).pending = s.pending := by
  unfold lvsLatch
  exact (forUpto_pending fun s a => foldl_pending fun s k => wrWord_pending _ _ s).trans (wr_pending _ _ s)

@[simp] theorem selLatch_pending (s : State) : (selLatch s).pending = s.pending := by
  unfold selLatch
  exact (forUpto_pending fun s a => by simp).trans (wr_pending _ _ s)

/-! Lanes (chapter 04). -/

@[simp] theorem lnkCtrlWrite_pending (l : Nat) (v : Word) (s : State) : (lnkCtrlWrite l v s).pending = s.pending := by
  simp [lnkCtrlWrite]

@[simp] theorem lnpCtrlWrite_pending (k : Nat) (v : Word) (s : State) : (lnpCtrlWrite k v s).pending = s.pending := by
  simp [lnpCtrlWrite]

@[simp] theorem brstWrite_pending (l : Nat) (v : Word) (s : State) : (brstWrite l v s).pending = s.pending := by
  simp [brstWrite, apply_ite State.pending]

@[simp] theorem pushOp_pending (l : Nat) (o : MbxOp) (s : State) : (pushOp l o s).pending = s.pending := by
  simp [pushOp, apply_ite State.pending]

@[simp] theorem echoWrite_pending (l : Nat) (v : Word) (s : State) : (echoWrite l v s).pending = s.pending := by
  simp [echoWrite, apply_ite State.pending]

/-! Programs and the Foreman (chapters 15 and 16). -/

@[simp] theorem benCfgWrite_pending (v : Word) (s : State) : (benCfgWrite v s).pending = s.pending := by
  simp [benCfgWrite]

@[simp] theorem fmnCfgWrite_pending (v : Word) (s : State) : (fmnCfgWrite v s).pending = s.pending := by
  simp [fmnCfgWrite, apply_ite State.pending]

@[simp] theorem flowCfgWrite_pending (n : Nat) (v : Word) (s : State) : (flowCfgWrite n v s).pending = s.pending := by
  simp [flowCfgWrite, apply_ite State.pending]

@[simp] theorem makeReady_pending (c : Nat) (s : State) : (makeReady c s).pending = s.pending := by
  simp [makeReady]

@[simp] theorem unready_pending (c : Nat) (s : State) : (unready c s).pending = s.pending := by
  simp [unready]

@[simp] theorem pd4Rest_pending (s : State) : (pd4Rest s).pending = s.pending := by
  simp [pd4Rest, apply_ite State.pending]

@[simp] theorem leaveExec_pending (c : Nat) (s : State) : (leaveExec c s).pending = s.pending := by
  simp [leaveExec, apply_ite State.pending]

@[simp] theorem syncFlow_pending (s : State) (f : Nat) : (syncFlow s f).pending = s.pending := by
  unfold syncFlow
  extract_lets n sv up s1 k s2
  have h1 : s1.pending = s.pending :=
    ite_pending (foldl_pending fun s c => makeReady_pending c s) (foldl_pending fun s c => by simp)
  have h2 : s2.pending = s1.pending := (wr_pending _ _ _).trans (wr_pending _ _ _)
  rw [wr_pending, h2, h1]

@[simp] theorem sync_pending (s : State) : (sync s).pending = s.pending := by
  unfold sync
  exact forUpto_pending syncFlow_pending

@[simp] theorem fmnLatch_pending (s : State) : (fmnLatch s).pending = s.pending := by
  unfold fmnLatch
  refine (forUpto_pending fun s c => ?_).trans ?_
  · simp
  · rw [wr_pending, sync_pending]

/-! Host contexts (chapter 18). -/

@[simp] theorem hostRefresh_pending (n : Nat) (s : State) : (hostRefresh n s).pending = s.pending := by
  unfold hostRefresh
  extract_lets c s1 s2 held s3 s4
  have h1 : s1.pending = s.pending := wr_pending _ _ s
  have h2 : s2.pending = s.pending := (wr_pending _ _ s1).trans h1
  have h3 : s3.pending = s.pending := ite_pending ((count_pending _ s2).trans h2) h2
  have h4 : s4.pending = s.pending := (wrB_pending _ _ s3).trans h3
  exact (wrB_pending _ _ s4).trans h4

@[simp] theorem landed_pending (n : Nat) (s : State) : (landed n s).pending = s.pending := by
  simp [landed]

@[simp] theorem pushCompletion_pending (n : Nat) (c : Completion) (s : State) : (pushCompletion n c s).pending = s.pending := by
  simp [pushCompletion, apply_ite State.pending]

@[simp] theorem complete_pending (c : HostCmd) (st : Status) (info : List Byte) (etick : Tick) (result : Option (List Byte)) (s : State) :
    (complete c st info etick result s).pending = s.pending := by
  simp [complete, apply_ite State.pending]

@[simp] theorem refuse_pending (c : HostCmd) (st : Status) (info : List Byte) (s : State) : (refuse c st info s).pending = s.pending := by
  simp [refuse]

@[simp] theorem abortUnreleased_pending (n : Nat) (s : State) : (abortUnreleased n s).pending = s.pending := by
  unfold abortUnreleased
  refine (foldl_pending fun s i => ?_).trans (modHctx_pending _ _ s)
  split <;> simp

@[simp] theorem contextAttach_pending (n : Nat) (vf : Bool) (s : State) : (contextAttach n vf s).pending = s.pending := by
  simp [contextAttach, apply_ite State.pending]

@[simp] theorem contextDetach_pending (n : Nat) (s : State) : (contextDetach n s).pending = s.pending := by
  simp [contextDetach, apply_ite State.pending]

@[simp] theorem hstCtrlWrite_pending (n : Nat) (v : Word) (pf : Bool) (s : State) : (hstCtrlWrite n v pf s).pending = s.pending := by
  simp [hstCtrlWrite, apply_ite State.pending]

@[simp] theorem ringWrite_pending (n : Nat) (r : RegSpec) (a : Nat) (v : Word) (s : State) :
    (ringWrite n r a v s).pending = s.pending := by
  simp [ringWrite, apply_ite State.pending]

/-! Networks and security (chapters 19 and 20). -/

@[simp] theorem setPtp_pending (p st : Nat) (s : State) : (setPtp p st s).pending = s.pending := by
  simp [setPtp]

@[simp] theorem modPort_pending (p : Nat) (f : PortSt → PortSt) (s : State) : (modPort p f s).pending = s.pending := by
  simp [modPort]

@[simp] theorem mirrorServo_pending (s : State) : (mirrorServo s).pending = s.pending := by
  simp [mirrorServo, apply_ite State.pending]

@[simp] theorem enterHoldover_pending (s : State) : (enterHoldover s).pending = s.pending := by
  simp [enterHoldover, apply_ite State.pending]

@[simp] theorem slavesLost_pending (s : State) : (slavesLost s).pending = s.pending := by
  simp [slavesLost, apply_ite State.pending]

@[simp] theorem takeDown_pending (p : Nat) (s : State) : (takeDown p s).pending = s.pending := by
  simp [takeDown, apply_ite State.pending]

@[simp] theorem netCfgWrite_pending (v : Word) (s : State) : (netCfgWrite v s).pending = s.pending := by
  unfold netCfgWrite
  refine (forUpto_pending fun s p => ite_pending rfl (takeDown_pending p s)).trans ?_
  simp

@[simp] theorem ptpCfgWrite_pending (r : RegSpec) (v : Word) (s : State) : (ptpCfgWrite r v s).pending = s.pending := by
  unfold ptpCfgWrite
  refine ite_pending (by simp) (ite_pending (by simp) ((forUpto_pending fun s p => ?_).trans (by simp)))
  exact ite_pending rfl (ite_pending (by simp) (ite_pending (by simp) (by simp)))

@[simp] theorem gooseCfgWrite_pending (v : Word) (s : State) : (gooseCfgWrite v s).pending = s.pending := by
  simp [gooseCfgWrite, apply_ite State.pending]

@[simp] theorem fuseBurn_pending (v : Word) (s : State) : (fuseBurn v s).pending = s.pending := by
  simp [fuseBurn, apply_ite State.pending]

@[simp] theorem raiseFloor_pending (kind epoch : Nat) (s : State) : (raiseFloor kind epoch s).pending = s.pending := by
  simp [raiseFloor]

@[simp] theorem showFuses_pending (s : State) : (showFuses s).pending = s.pending := by
  unfold showFuses
  extract_lets s1
  have h1 : s1.pending = s.pending := (wr_pending _ _ _).trans (wr_pending _ _ s)
  exact (wr_pending _ _ _).trans ((wr_pending _ _ _).trans ((wr_pending _ _ s1).trans h1))

@[simp] theorem epochRaise_pending (v : Word) (s : State) : (epochRaise v s).pending = s.pending := by
  unfold epochRaise
  refine ite_pending rfl (ite_pending (by simp) ?_)
  rw [showFuses_pending]
  refine foldl_pending fun s g => ?_
  split
  · exact raiseFloor_pending _ _ s
  · rfl

@[simp] theorem keyDataWrite_pending (n : Nat) (v : Word) (s : State) : (keyDataWrite n v s).pending = s.pending := by
  simp [keyDataWrite]

end Sys2Proof.Machine
end

section
/-! Commands that leave the queue, and commands that change registers alone: how their completion is shown. -/

namespace Sys2Proof.Machine

set_option Elab.async false

/-- A state whose queue is put back as it is. -/
theorem queue_kept {t : State} {q : List Instr} (h : t.pending = q) : { t with pending := q } = t := by subst h; rfl

/-- A command that leaves the queue of commands completes in the state its effect leaves. -/
theorem completes_cmd_kept {c : Instr} {s : State} {f : State → State} {post : State → Prop} (e : exec c s = cmd f s) (h : Live s)
    (q : (f { s with sent := [] }).pending = s.pending) (p : post (f { s with sent := [] })) : Completes c s post := by
  refine completes_cmd e h ?_
  rw [queue_kept q]
  exact p

/-- A register command that acts at once and leaves the queue of commands completes in the state its effect leaves. -/
theorem completes_write_kept {c : Instr} {a : Nat} {v : Word} {s : State} {f : State → State} {post : State → Prop}
    (e : exec c s = cmd (regWrite a v f) s) (h : Writable a s) (q : (f { s with sent := [] }).pending = s.pending)
    (p : post (f { s with sent := [] })) : Completes c s post := by
  have g := regWrite_writable h v f
  exact completes_cmd_kept e h.1 (by rw [g]; exact q) (by rw [g]; exact p)

/-! Commands that change registers alone. -/

/-- The state a command starts from. -/
theorem onlyRegs_start (l : List Nat) (s : State) : OnlyRegs l s { s with sent := [] } := ⟨rfl, fun _ _ => rfl⟩

/-- Nothing but registers changes with a word placed at one of the addresses listed. -/
theorem OnlyRegs.wrWord {l : List Nat} {s t : State} (h : OnlyRegs l s t) {a : Nat} (m : a ∈ l) (v : Word) :
    OnlyRegs l s (wrWord a v t) := by
  obtain ⟨e, r⟩ := h
  refine ⟨congrArg (fun x : State => { x with regs := (Machine.wrWord a v t).regs }) e, fun b n => ?_⟩
  rw [rdWord_wrWord_ne _ _ (fun c => n (by rw [c]; exact m)), r b n]

/-- Nothing but registers changes with a field placed in one of the registers listed. -/
theorem OnlyRegs.wr {l : List Nat} {s t : State} (h : OnlyRegs l s t) {f : Field} (m : f.addr ∈ l) (v : Nat) :
    OnlyRegs l s (wr f v t) := h.wrWord m _

/-- Nothing but registers changes with a bit placed in one of the registers listed. -/
theorem OnlyRegs.wrB {l : List Nat} {s t : State} (h : OnlyRegs l s t) {f : Field} (m : f.addr ∈ l) (b : Bool) :
    OnlyRegs l s (wrB f b t) := h.wr m _

end Sys2Proof.Machine
end

section
/-! Register writes through BAR0 (R9, R582 to R586, R600): what a write's path to the register does, and what the access codes
make of the fields. -/

namespace Sys2Proof.Machine

set_option Elab.async false

/-! Fields of a word. -/

/-- The value of a field of a register word. -/
def fieldVal (w : Word) (f : FieldSpec) : Nat := w.toNat / 2 ^ f.lo % 2 ^ f.width

/-- Two fields share no bit. -/
def Apart (f g : FieldSpec) : Prop := f.lo + f.width ≤ g.lo ∨ g.lo + g.width ≤ f.lo

theorem fieldVal_testBit (w : Word) (f : FieldSpec) (i : Nat) :
    (fieldVal w f).testBit i = (decide (i < f.width) && w.toNat.testBit (i + f.lo)) := by
  rw [fieldVal, Nat.testBit_mod_two_pow, Nat.testBit_div_two_pow]

/-- The field placed reads what was placed. -/
theorem fieldVal_putBits_same (w : Word) (f : FieldSpec) (v : Nat) (h : f.lo + f.width ≤ 32) :
    fieldVal (putBits w f.lo f.width v) f = v % 2 ^ f.width := by
  refine Nat.eq_of_testBit_eq fun i => ?_
  rw [fieldVal_testBit, putBits_testBit _ _ h, Nat.testBit_mod_two_pow]
  by_cases hi : i < f.width
  · rw [if_pos (by omega), Nat.add_sub_cancel]
  · simp [hi]

/-- A field apart from the one placed keeps its value. -/
theorem fieldVal_putBits_apart (w : Word) {f g : FieldSpec} (v : Nat) (h : f.lo + f.width ≤ 32) (d : Apart f g) :
    fieldVal (putBits w f.lo f.width v) g = fieldVal w g := by
  refine Nat.eq_of_testBit_eq fun i => ?_
  rw [fieldVal_testBit, fieldVal_testBit, putBits_testBit _ _ h]
  by_cases hi : i < g.width
  · rw [if_neg (by unfold Apart at d; omega)]
  · simp [hi]

/-! Fields by their access codes (R9). -/

theorem writeField_apart (v w : Word) {f g : FieldSpec} (h : f.lo + f.width ≤ 32) (d : Apart f g) :
    fieldVal (writeField v w f) g = fieldVal w g := by
  unfold writeField
  dsimp only
  split
  · exact fieldVal_putBits_apart w _ h d
  · exact fieldVal_putBits_apart w _ h d
  · rfl

/-- A field of access RW takes the bits written. -/
theorem writeField_rw (v w : Word) {f : FieldSpec} (h : f.lo + f.width ≤ 32) (a : f.acc = .rw) :
    fieldVal (writeField v w f) f = fieldVal v f := by
  unfold writeField
  rw [a]
  exact (fieldVal_putBits_same w f _ h).trans (Nat.mod_mod _ _)

/-- A field of access RO keeps its bits. -/
theorem writeField_ro (v w : Word) {f : FieldSpec} (a : f.acc = .ro) : writeField v w f = w := by
  unfold writeField
  rw [a]

/-- The fields of a register word lie within it, and no two share a bit. -/
def FieldsFit (l : List FieldSpec) : Prop := (∀ f ∈ l, f.lo + f.width ≤ 32) ∧ l.Pairwise Apart

theorem FieldsFit.tail {f : FieldSpec} {l : List FieldSpec} (h : FieldsFit (f :: l)) : FieldsFit l :=
  ⟨fun g m => h.1 g (List.mem_cons_of_mem f m), h.2.tail⟩

/-- A field apart from all that are written keeps its value. -/
theorem writeFields_apart (v : Word) {g : FieldSpec} (l : List FieldSpec) (h : ∀ f ∈ l, f.lo + f.width ≤ 32)
    (d : ∀ f ∈ l, Apart f g) (w : Word) : fieldVal (l.foldl (writeField v) w) g = fieldVal w g := by
  induction l generalizing w with
  | nil => rfl
  | cons f r ih =>
    rw [List.foldl_cons, ih (fun f m => h f (List.mem_cons_of_mem _ m)) (fun f m => d f (List.mem_cons_of_mem _ m))]
    exact writeField_apart v w (h f List.mem_cons_self) (d f List.mem_cons_self)

/-- What the write of a register makes of one of its fields is what it makes of that field alone. -/
theorem writeFields_field (v : Word) {g : FieldSpec} (l : List FieldSpec) (h : FieldsFit l) (m : g ∈ l) (w : Word) :
    ∃ x, fieldVal x g = fieldVal w g ∧ fieldVal (l.foldl (writeField v) w) g = fieldVal (writeField v x g) g := by
  induction l generalizing w with
  | nil => cases m
  | cons f r ih =>
    obtain ⟨fit, pair⟩ := h
    have ap : ∀ k ∈ r, Apart f k := (List.pairwise_cons.1 pair).1
    rcases List.mem_cons.1 m with rfl | m
    · exact ⟨w, rfl, writeFields_apart v r (fun f m => fit f (List.mem_cons_of_mem _ m)) (fun f m => (ap f m).symm) _⟩
    · obtain ⟨x, hx, e⟩ := ih (FieldsFit.tail ⟨fit, pair⟩) m (writeField v w f)
      exact ⟨x, hx.trans (writeField_apart v w (fit f List.mem_cons_self) (ap g m)), e⟩

/-- Every register of the map has fields that lie within its word and share no bit (R591). -/
theorem regMap_fieldsFit : ∀ r ∈ regMap, FieldsFit r.fields := by
  unfold FieldsFit Apart
  decide +kernel

theorem regSpecAt_fieldsFit {n : Nat} {r : RegSpec} (h : regSpecAt n = some r) : FieldsFit r.fields :=
  regMap_fieldsFit r (List.mem_of_find?_eq_some h)

theorem rd_wrWord (s : State) (n : Nat) (w : Word) (f : FieldSpec) : rd (wrWord n w s) ⟨n, f.lo, f.width⟩ = fieldVal w f := by
  rw [rd, rdWord_wrWord_same, fieldVal]

/-! The queue of commands. -/

/-- No register with an effect of its own reaches the queue. -/
theorem ownWrite_pending (a : Nat) (v : Word) (s : State) : ∀ f ∈ ownWrite a v, (f s).pending = s.pending := by
  unfold ownWrite
  split <;> simp [apply_ite State.pending, eachUnit_pending]

theorem arrayWrite_pending (r : RegSpec) (a : Nat) (v : Word) (pf : Bool) (s : State) :
    (arrayWrite r a v pf s).pending = s.pending := by
  simp [arrayWrite, apply_ite State.pending]

theorem applyWrite_pending (a : Nat) (v : Word) (pf : Bool) (s : State) : (applyWrite a v pf s).pending = s.pending := by
  unfold applyWrite
  split
  · rfl
  · split
    · next f h => exact ite_pending (wrerr_pending a s) (ownWrite_pending a v s f h)
    · exact ite_pending (wrerr_pending a s) (arrayWrite_pending _ a v pf s)

/-! The way to a register (R486, R487, R514, R586). -/

/-- What a whole write that may reach the register does there: a virtual function's write of HST_PERM or HST_LEAD is
recorded, any other is applied (R487). -/
def busEffect (n : Nat) (v : Word) (pf : Bool) (s : State) : State :=
  if !pf && (n == 0x79000 || n % 0x100 == 0x1C) then wrerr n s else applyWrite n v pf s

theorem busEffect_pending (n : Nat) (v : Word) (pf : Bool) (s : State) : (busEffect n v pf s).pending = s.pending :=
  ite_pending (wrerr_pending n s) (applyWrite_pending n v pf s)

/-- The register at `n` is listed, and the function may write it: the physical one any, a virtual one those of its window. -/
def Reaches (n : Nat) (pf : Bool) : Prop :=
  n % 4 = 0 ∧ (regSpecAt n).isSome = true ∧ (pf = true ∨ (0x78000 ≤ n ∧ n < 0x79004))

/-- A write that is not whole, or that no register takes from this function, is ignored. -/
theorem busWrite_ignored {n : Nat} {v : Word} {be : BitVec 4} {pf : Bool} {s : State}
    (h : be ≠ 0xF ∨ n % 4 ≠ 0 ∨ regSpecAt n = none ∨ (pf = false ∧ (n < 0x78000 ∨ 0x79004 ≤ n))) : busWrite n v be pf s = s := by
  refine if_pos ?_
  rcases h with h | h | h | ⟨h, w⟩
  · exact .inl h
  · exact .inr (.inl h)
  · exact .inr (.inr (.inr (by rw [h]; rfl)))
  · exact .inr (.inr (.inl ⟨by rw [h]; rfl, w⟩))

/-- A whole write that may reach its register goes the way of every register write; PRECHG of LPE_CFG is apart (R570). -/
theorem busWrite_reaches {n : Nat} {v : Word} {pf : Bool} {s : State} (h : Reaches n pf) (np : n ≠ 0x30000) :
    busWrite n v 0xF pf s = regWrite n v (busEffect n v pf) s := by
  obtain ⟨h4, hr, win⟩ := h
  unfold busWrite
  rw [if_neg, if_neg (fun c => np c.1)]
  · rfl
  · rintro (c | c | ⟨c, w⟩ | c)
    · exact c rfl
    · exact c h4
    · rcases win with rfl | win
      · cases c
      · omega
    · rw [Option.isNone_iff_eq_none.1 c] at hr
      cases hr

/-- A whole write that reaches a writable register completes in the state its effect leaves. -/
theorem completes_busWrite {a v : Word} {pf : Bool} {s : State} {post : State → Prop} (h : Reaches a.toNat pf)
    (w : Writable a.toNat s) (np : a.toNat ≠ 0x30000) (p : post (busEffect a.toNat v pf { s with sent := [] })) :
    Completes (.registerWrite a v 0xF pf) s post := by
  have e := (busWrite_reaches (v := v) (s := { s with sent := [] }) h np).trans (regWrite_writable w v _)
  refine completes_cmd_kept (f := busWrite a.toNat v 0xF pf) rfl w.1 ?_ ?_
  · rw [e]; exact busEffect_pending _ _ _ _
  · rw [e]; exact p

/-! The registers at their ends. -/

theorem all_ite {α : Type} {c : Prop} [Decidable c] {a b : Option α} {p : α → Bool} (ha : a.all p = true) (hb : b.all p = true) :
    (if c then a else b).all p = true := by
  split
  · exact ha
  · exact hb

/-- Every WRERR is one bit of its word. -/
theorem wrerrOf_bit (n : Nat) : (wrerrOf n).all (fun f => f.width == 1 && decide (f.lo + f.width ≤ 32)) = true := by
  unfold wrerrOf
  repeat' apply all_ite
  all_goals rfl

/-- A write recorded in WRERR shows it, and changes nothing else (R600). -/
theorem wrerr_recorded {n : Nat} {f : Field} (h : wrerrOf n = some f) (s : State) :
    rdB (wrerr n { s with sent := [] }) f = true ∧ OnlyRegs [f.addr] s (wrerr n { s with sent := [] }) := by
  have bit := wrerrOf_bit n
  rw [h] at bit
  obtain ⟨w, l⟩ : f.width = 1 ∧ f.lo + f.width ≤ 32 := by simpa using bit
  have e : wrerr n { s with sent := [] } = wrB f true { s with sent := [] } := by
    unfold wrerr
    rw [h]
  rw [e]
  exact ⟨rdB_wrB_same _ _ _ l w, (onlyRegs_start _ s).wrB (List.mem_singleton.2 rfl) _⟩

/-- A block without a WRERR bit records nothing. -/
theorem wrerr_none {n : Nat} (h : wrerrOf n = none) (s : State) : wrerr n s = s := by
  unfold wrerr
  rw [h]

/-- A register without an effect of its own, alone or in an array, is written by its access codes. -/
theorem busEffect_plain {n : Nat} {v : Word} {r : RegSpec} (hr : regSpecAt n = some r) (ho : ownWrite n v = none)
    (ha : ∀ x, arrayWrite r n v true x = plainWrite r n v x) (s : State) : busEffect n v true s = plainWrite r n v s := by
  have e : busEffect n v true s = applyWrite n v true s := rfl
  rw [e]
  unfold applyWrite
  rw [hr]
  dsimp only
  rw [ho]
  dsimp only
  rw [ha]
  unfold plainWrite
  split <;> rfl

theorem plainWrite_counter {r : RegSpec} {n : Nat} {v : Word} (o : outOfRange r v = false) (c : isCounter r = true) (s : State) :
    plainWrite r n v s = if v.getLsbD 31 then wrWord n 0 s else s := by
  simp only [plainWrite, o, c, Bool.false_eq_true, if_false, if_true]

theorem plainWrite_held {r : RegSpec} {n : Nat} {v : Word} (o : outOfRange r v = false) (c : isCounter r = false)
    (h : ∃ f ∈ r.fields, f.acc = .st) (s : State) : plainWrite r n v s =
      wrB TCK_COMMIT_PEND true { s with stWrites := s.stWrites ++ [{ addr := n, value := stValue r v, at_ := s.time }] } := by
  have a : (r.fields.any fun f => f.acc == .st) = true := by simpa using h
  simp only [plainWrite, o, c, a, Bool.false_eq_true, if_false, if_true]

theorem plainWrite_fields {r : RegSpec} {n : Nat} {v : Word} (o : outOfRange r v = false) (c : isCounter r = false)
    (h : ∀ f ∈ r.fields, f.acc ≠ .st) (s : State) :
    plainWrite r n v s = wrWord n (r.fields.foldl (writeField v) (rdWord s n)) s := by
  have a : (r.fields.any fun f => f.acc == .st) = false := by simpa using h
  simp only [plainWrite, o, c, a, Bool.false_eq_true, if_false]

/-- Settles O57: the clauses by the way a write takes to its register (ignored, held for its domain, or reaching it), and of
those that reach it by what the register is. -/
theorem registerWrites : Obligations.RegisterWrites := by
  unfold Obligations.RegisterWrites
  intro a v s n
  refine ⟨fun r hr h4 hw ho ha np => ?plain, fun be pf live h => ?ignored, fun r pf hr h4 hw win => ⟨fun hpf hvf => ?refused,
    fun hall hrange np => ?reached⟩, fun r live hr h4 hans hoff np => ?held⟩
  case plain =>
    have reach : Reaches n true := ⟨h4, by rw [hr]; rfl, .inl rfl⟩
    have effect := busEffect_plain hr ho ha { s with sent := [] }
    refine ⟨fun o => ?_, fun o c => ?_, fun o c st => ?_, fun o c st => ?_⟩
    · refine completes_busWrite reach hw np ?_
      rw [effect, plainWrite, if_pos o]
      exact ⟨fun f hf => wrerr_recorded hf s, fun none => wrerr_none none _⟩
    · refine completes_busWrite reach hw np ?_
      rw [effect, plainWrite_counter o c]
      split
      · exact ⟨rdWord_wrWord_same _ _ _, (onlyRegs_start _ s).wrWord (List.mem_singleton.2 rfl) _⟩
      · exact ⟨rfl, onlyRegs_start _ s⟩
    · refine completes_busWrite reach hw np ?_
      rw [effect, plainWrite_held o c st]
      exact ⟨rfl, rdB_wrB_same _ _ _ (by decide) rfl,
        (onlyRegs_start _ { s with stWrites := s.stWrites ++ [{ addr := n, value := stValue r v, at_ := s.time }] }).wrB
          (by decide) _⟩
    · have fit := regSpecAt_fieldsFit hr
      refine completes_busWrite reach hw np ?_
      rw [effect, plainWrite_fields o c st]
      refine ⟨fun f m rw => ?_, fun f m ro => ?_, (onlyRegs_start _ s).wrWord (List.mem_singleton.2 rfl) _⟩
      · obtain ⟨x, _, e⟩ := writeFields_field v r.fields fit m (rdWord { s with sent := [] } n)
        rw [rd_wrWord, e, writeField_rw v x (fit.1 f m) rw, fieldVal]
      · obtain ⟨x, hx, e⟩ := writeFields_field v r.fields fit m (rdWord { s with sent := [] } n)
        rw [rd_wrWord, e, writeField_ro v x ro, hx]
        rfl
  case ignored =>
    have e := busWrite_ignored (v := v) (s := { s with sent := [] }) h
    refine completes_cmd_kept (f := busWrite n v be pf) rfl live (by rw [e]) ?_
    rw [e]
    rfl
  case refused =>
    have reach : Reaches n pf := ⟨h4, by rw [hr]; rfl, win⟩
    have away : n ≠ 0x30000 := by
      rcases win with c | ⟨low, _⟩
      · rw [hpf] at c
        cases c
      · omega
    refine completes_busWrite reach hw away ?_
    have e : busEffect n v pf { s with sent := [] } = wrerr n { s with sent := [] } := if_pos (by simpa [hpf] using hvf)
    rw [e]
    exact fun f hf => wrerr_recorded hf s
  case reached =>
    have reach : Reaches n pf := ⟨h4, by rw [hr]; rfl, win⟩
    have e : busEffect n v pf { s with sent := [] } = applyWrite n v pf { s with sent := [] } := by
      refine if_neg ?_
      rcases hall with h | ⟨h1, h2⟩
      · simp [h]
      · simp [h1, h2]
    refine ⟨fun f hf => completes_busWrite reach hw np ?_, fun ho => completes_busWrite reach hw np ?_⟩
    · rw [e, applyWrite, hr]
      dsimp only
      rw [hf]
      exact if_neg (by simp [hrange])
    · rw [e, applyWrite, hr]
      dsimp only
      rw [ho]
      exact if_neg (by simp [hrange])
  case held =>
    have reach : Reaches n true := ⟨h4, by rw [hr]; rfl, .inl rfl⟩
    have e : busWrite n v 0xF true { s with sent := [] } = holdWrite n v { s with sent := [] } := by
      have answering : answers { s with sent := [] } n = true := hans
      have off : domainOn { s with sent := [] } (domainOf n) = false := hoff
      rw [busWrite_reaches reach np, regWrite, answering, off]
      rfl
    refine completes_cmd_kept (f := busWrite n v 0xF true) rfl live (by rw [e]; rfl) ?_
    rw [e]
    rfl

end Sys2Proof.Machine
end

section
/-! The registers of the clock chapter (R72, R73, R79). -/
namespace Sys2Proof.Machine

set_option Elab.async false

/-! Mirroring on the Dovetail link. -/

/-- Sending a record changes the duplex sender and what is sent, and nothing else (R381, R382). -/
theorem mirror_keeps {β : Type} (g : State → β) (h : ∀ s l d, g { s with sent := l, dpx := d } = g s) (r : DoveRec) (s : State) :
    g (mirror r s) = g s := by
  unfold mirror sendDove
  split
  · split
    · rfl
    · exact h s _ _
  · rfl

/-- Only the active device mirrors (R382). -/
theorem mirror_inactive {s : State} (h : s.role ≠ .active) (r : DoveRec) : mirror r s = s := by
  unfold mirror
  rw [if_neg (by simpa using h)]

/-! The divider commit. -/

/-- With no commit held there is none to release (R73). -/
theorem releaseCommit_idle {s : State} (h : rdB s CLK_COMMIT_PEND = false) : releaseCommit s = s := by
  simp [releaseCommit, h]

/-- A GO that is not written, or that delay-locked mode or a running commit ignores, changes nothing (R73). -/
theorem clkCommit_ignored {v : Word} {s : State} (p : rdB s CLK_COMMIT_PEND = false)
    (h : v.getLsbD 0 = false ∨ delayLocked s = true ∨ rdB s CLK_COMMIT_GO = true) : clkCommit v s = s := by
  have c : (!v.getLsbD 0 || delayLocked s || rdB s CLK_COMMIT_GO) = true := by
    rcases h with h | h | h <;> rw [h]
    · rfl
    · rw [Bool.or_true, Bool.true_or]
    · rw [Bool.or_true]
  unfold clkCommit
  dsimp only
  rw [releaseCommit_idle p, if_pos c]

/-- A GO during a reference switch is held (R73). -/
theorem clkCommit_held {v : Word} {s : State} (p : rdB s CLK_COMMIT_PEND = false) (g : v.getLsbD 0 = true)
    (d : delayLocked s = false) (n : rdB s CLK_COMMIT_GO = false) (w : s.time < s.clk.switchEnd) :
    clkCommit v s = wrB CLK_COMMIT_GO true (wrB CLK_COMMIT_PEND true s) := by
  unfold clkCommit
  dsimp only
  rw [releaseCommit_idle p, g, d, n, if_neg (by decide), if_pos w]

/-- Outside a reference switch GO commits at once (R72). -/
theorem clkCommit_now {v : Word} {s : State} (p : rdB s CLK_COMMIT_PEND = false) (g : v.getLsbD 0 = true)
    (d : delayLocked s = false) (n : rdB s CLK_COMMIT_GO = false) (w : s.clk.switchEnd ≤ s.time) :
    clkCommit v s = commitDivider s := by
  unfold clkCommit
  dsimp only
  rw [releaseCommit_idle p, g, d, n, if_neg (by decide), if_neg (Nat.not_lt.2 w)]

/-- Any NINT but 50 is refused and recorded (R72). -/
theorem commitDivider_refused {s : State} (h : rd s CLK_PLL_NINT ≠ 50) :
    commitDivider s = wrB CLK_STATUS_WRERR true (wrB CLK_COMMIT_GO false (wrB CLK_COMMIT_PEND false s)) := by
  simp [commitDivider, h]

/-- The registers of an admitted commit: GO reads 1 until the mark. -/
def goShown (s : State) : State := wrB CLK_COMMIT_GO true (wrB CLK_COMMIT_GO false (wrB CLK_COMMIT_PEND false s))

theorem rdB_goShown (s : State) : rdB (goShown s) CLK_COMMIT_GO = true := rdB_wrB_same _ _ _ (by decide) rfl

theorem rdWord_goShown {s : State} {a : Nat} (h : a ≠ 0x200C) : rdWord (goShown s) a = rdWord s a :=
  (rdWord_wr_ne _ _ _ h).trans ((rdWord_wr_ne _ _ _ h).trans (rdWord_wr_ne _ _ _ h))

/-- The clock state of an admitted commit (R72, R73): NINT at once, FRAC clamped for the next mark. -/
def committedClk (s : State) : ClockSt :=
  { s.clk with nint := 50, fracNext := some (clampFrac (rdI s CLK_FRAC_FRAC)) }

/-- NINT 50, in force or in SETUP, is admitted, and FRAC with it unless the servo owns it (R72, R73). -/
theorem commitDivider_admitted {s : State} (h : rd s CLK_PLL_NINT = 50) (k : s.clk.nint = 50 ∨ s.dev = .setup)
    (o : servoOwns s = false) : commitDivider s =
      mirrorFrac (clampFrac (rdI s CLK_FRAC_FRAC)) { s with regs := (goShown s).regs, clk := committedClk s } := by
  have far : ∀ f : Field, f.addr ≠ 0x200C → rd (wrB CLK_COMMIT_GO false (wrB CLK_COMMIT_PEND false s)) f = rd s f := fun f hf =>
    (rd_wrB_addr _ _ _ _ hf).trans (rd_wrB_addr _ _ _ _ hf)
  have owns : ∀ c, servoOwns { wrB CLK_COMMIT_GO false (wrB CLK_COMMIT_PEND false s) with clk := c } = false := by
    intro c
    refine Eq.trans (b := servoOwns (wrB CLK_COMMIT_GO false (wrB CLK_COMMIT_PEND false s))) rfl (Eq.trans ?_ o)
    unfold servoOwns delayLocked
    rw [far _ (by decide), far _ (by decide)]
  have frac : ∀ c, rdI { wrB CLK_COMMIT_GO false (wrB CLK_COMMIT_PEND false s) with clk := c } CLK_FRAC_FRAC =
      rdI s CLK_FRAC_FRAC := fun c => congrArg (signed _) (far CLK_FRAC_FRAC (by decide))
  have keeps : ¬((50 : Nat) ≠ 50 ∨ (50 : Nat) ≠ s.clk.nint.toNat ∧ s.dev ≠ .setup) := by
    rintro (a | ⟨a, b⟩)
    · exact a rfl
    · rcases k with k | k
      · exact a (by rw [k]; rfl)
      · exact b k
  unfold commitDivider
  simp only [h]
  refine (if_neg keeps).trans ((if_neg (by rw [owns]; exact Bool.false_ne_true)).trans ?_)
  rw [frac]
  rfl

/-- What mirroring FRAC leaves of a state in which registers and the clock have changed, whoever mirrors it (R95). -/
theorem mirrorFrac_leaves (f : BitVec 24) (s : State) (r : KeyList Word) (c : ClockSt) :
    let t := mirrorFrac f { s with regs := r, clk := c }
    t.regs = r ∧ t.clk = c ∧ t.cells = s.cells ∧ t.conv = s.conv ∧ t.time = s.time ∧
      (s.role ≠ .active → t = { s with regs := t.regs, clk := t.clk }) := by
  have keeps : ∀ {β : Type} (g : State → β), (∀ s l d, g { s with sent := l, dpx := d } = g s) →
      g (mirrorFrac f { s with regs := r, clk := c }) = g { s with regs := r, clk := c } := fun g h => mirror_keeps g h _ _
  refine ⟨keeps State.regs fun _ _ _ => rfl, keeps State.clk fun _ _ _ => rfl, keeps State.cells fun _ _ _ => rfl,
    keeps State.conv fun _ _ _ => rfl, keeps State.time fun _ _ _ => rfl, fun h => ?_⟩
  have e : mirrorFrac f { s with regs := r, clk := c } = { s with regs := r, clk := c } :=
    mirror_inactive (s := { s with regs := r, clk := c }) h _
  rw [e]

/-! CLK_SYNC. -/

/-- A MODE in force with an offset in range is taken (R79). -/
theorem clkSyncWrite_taken {v : Word} {s : State} (m : v.toNat % 4 ≠ 3) (o : v.toNat / 4 < 1000000000)
    (c : v.toNat % 4 = 2 → s.conv = .dormant) :
    clkSyncWrite v s = wr CLK_SYNC_MODE (v.toNat % 4) (wr CLK_SYNC_SYNC_OFS (v.toNat / 4) s) := by
  unfold clkSyncWrite
  dsimp only
  rw [if_neg]
  rintro (⟨a, b⟩ | a | a)
  · exact b (c a)
  · exact m a
  · omega

/-- ALIGN outside DORMANT, the reserved code and an offset of a second or more are refused (R79, R600). -/
theorem clkSyncWrite_refused {v : Word} {s : State}
    (h : (v.toNat % 4 = 2 ∧ s.conv ≠ .dormant) ∨ v.toNat % 4 = 3 ∨ 1000000000 ≤ v.toNat / 4) :
    clkSyncWrite v s = wrB CLK_STATUS_WRERR true s := if_pos h

/-- Settles O12: the commit by what it meets (a NINT admitted, a NINT refused, a switch under way), CLK_SYNC by its two
outcomes. -/
theorem clockRegisterWrites : Obligations.ClockRegisterWrites := by
  unfold Obligations.ClockRegisterWrites
  refine ⟨fun v s hw hp => ⟨fun g d n => ⟨fun w h50 k o => ?admitted, fun w h50 => ?refused, fun w => ?held⟩, fun h => ?ignored⟩,
    fun v s hw => ⟨fun m o c => ?taken, fun h => ?bad⟩⟩
  case admitted =>
    have e := (clkCommit_now (v := v) (s := { s with sent := [] }) hp g d n w).trans (commitDivider_admitted h50 k o)
    obtain ⟨regs, clk, cells, conv, time, alone⟩ := mirrorFrac_leaves (clampFrac (rdI { s with sent := [] } CLK_FRAC_FRAC))
      { s with sent := [] } (goShown { s with sent := [] }).regs (committedClk { s with sent := [] })
    refine completes_write_kept rfl hw (clkCommit_pending v _) ?_
    rw [e]
    refine ⟨?_, clk, alone, fun a ha => ?_, cells, conv, time⟩
    · exact (rdB_congr regs _).trans (rdB_goShown _)
    · exact (rdWord_congr regs a).trans (rdWord_goShown ha)
  case refused =>
    have e := (clkCommit_now (v := v) (s := { s with sent := [] }) hp g d n w).trans (commitDivider_refused h50)
    refine completes_write_kept rfl hw (clkCommit_pending v _) ?_
    rw [e]
    refine ⟨rdB_wrB_same _ _ _ (by decide) rfl, ?_, ?_⟩
    · exact (rdB_wrB_addr _ _ _ _ (by decide)).trans (rdB_wrB_same _ _ _ (by decide) rfl)
    · exact (((onlyRegs_start _ s).wrB (by decide) _).wrB (by decide) _).wrB (by decide) _
  case held =>
    have e := clkCommit_held (v := v) (s := { s with sent := [] }) hp g d n w
    refine completes_write_kept rfl hw (clkCommit_pending v _) ?_
    rw [e]
    refine ⟨rdB_wrB_same _ _ _ (by decide) rfl, ?_, ((onlyRegs_start _ s).wrB (by decide) _).wrB (by decide) _⟩
    exact (rdB_wrB_apart _ _ _ _ (by decide) (by decide)).trans (rdB_wrB_same _ _ _ (by decide) rfl)
  case ignored =>
    have e := clkCommit_ignored (s := { s with sent := [] }) hp h
    exact completes_write_kept rfl hw (clkCommit_pending v _) e
  case taken =>
    have hv := v.isLt
    have e := clkSyncWrite_taken (s := { s with sent := [] }) m o c
    refine completes_write_kept rfl hw (clkSyncWrite_pending v _) ?_
    rw [e]
    refine ⟨?_, ?_, ((onlyRegs_start _ s).wr (by decide) _).wr (by decide) _⟩
    · refine (rd_wr_same _ _ _ (by decide)).trans (Nat.mod_eq_of_lt ?_)
      simp only [CLK_SYNC_MODE]; omega
    · refine (rd_wr_apart _ _ _ _ (by decide) (by decide)).trans ((rd_wr_same _ _ _ (by decide)).trans (Nat.mod_eq_of_lt ?_))
      simp only [CLK_SYNC_SYNC_OFS]; omega
  case bad =>
    have e := clkSyncWrite_refused (s := { s with sent := [] }) h
    refine completes_write_kept rfl hw (clkSyncWrite_pending v _) ?_
    rw [e]
    exact ⟨rdB_wrB_same _ _ _ (by decide) rfl, rdWord_wr_ne _ _ _ (by decide), (onlyRegs_start _ s).wrB (by decide) _⟩

end Sys2Proof.Machine
end

section
/-! The outputs of a sigma-delta chain and the chain resets asked for (R237 to R249). -/

namespace Sys2Proof.Machine

set_option Elab.async false

/-! What an output leaves. -/

/-- A chain's state without its comparators and its grid position, which an output that stands goes on to move (R245, R247). -/
def ChainSt.signal (x : ChainSt) : ChainSt := { x with thr0 := {}, thr1 := {}, pos := 0, gridJ := 0, gridLate := none, grid := none }

/-- Between `s` and `t` chain `c` has come to `x`, up to its comparators and grid position, and the time to `now`; no other
chain, no cell and not the converter has moved. -/
def OutputDone (c : Nat) (s : State) (now : Nat) (x : ChainSt) (t : State) : Prop :=
  t.time = now ∧ t.conv = s.conv ∧ KeepsCells s t ∧ (∀ k, k ≠ c → chain t k = chain s k) ∧ (chain t c).signal = x.signal

/-- Nothing of chain `c` but its comparators and grid position moves between `s` and `t`, and nothing of any other. -/
def OutputKept (c : Nat) (s t : State) : Prop := OutputDone c s s.time (chain s c) t

theorem OutputKept.refl (c : Nat) (s : State) : OutputKept c s s := ⟨rfl, rfl, rfl, fun _ _ => rfl, rfl⟩

theorem OutputDone.kept {c : Nat} {s t u : State} {now : Nat} {x : ChainSt} (h : OutputDone c s now x t) (g : OutputKept c t u) :
    OutputDone c s now x u := by
  obtain ⟨time, conv, cells, others, own⟩ := h
  obtain ⟨time', conv', cells', others', own'⟩ := g
  exact ⟨time'.trans time, conv'.trans conv, Eq.trans cells' cells, fun k n => (others' k n).trans (others k n), own'.trans own⟩

theorem OutputKept.trans {c : Nat} {s t u : State} (h : OutputKept c s t) (g : OutputKept c t u) : OutputKept c s u :=
  OutputDone.kept h g

/-- What keeps `State.base` moves no chain. -/
theorem outputKept_of_base {c : Nat} {s t : State} (h : t.base = s.base) : OutputKept c s t := by
  have chains : t.chains = s.chains := show t.base.chains = s.base.chains by rw [h]
  have same : ∀ k, chain t k = chain s k := fun k => by unfold chain; rw [chains]
  exact ⟨show t.base.time = s.base.time by rw [h], show t.base.conv = s.base.conv by rw [h],
    show t.base.cells = s.base.cells by rw [h], fun k _ => same k, by rw [same]⟩

theorem chain_modChain_ne (f : ChainSt → ChainSt) (s : State) {c k : Nat} (h : k ≠ c) : chain (modChain c f s) k = chain s k := by
  unfold chain modChain
  exact kget_kmod_ne _ _ _ h

/-- A change of the chain. -/
theorem outputDone_modChain (c : Nat) (f : ChainSt → ChainSt) (s : State) :
    OutputDone c s s.time (f (chain s c)) (modChain c f s) :=
  ⟨rfl, rfl, rfl, fun _ n => chain_modChain_ne f s n, by rw [chain_modChain_same]⟩

/-- A change of the chain's comparators or grid position. -/
theorem outputKept_modChain (c : Nat) {f : ChainSt → ChainSt} (h : ∀ x, (f x).signal = x.signal) (s : State) :
    OutputKept c s (modChain c f s) :=
  ⟨rfl, rfl, rfl, fun _ n => chain_modChain_ne f s n, by rw [chain_modChain_same, h]⟩

/-! What follows an output: protection, comparators, the Ledger, the grid. -/

theorem wrB_kept (c : Nat) (f : Field) (b : Bool) (s : State) : OutputKept c s (wrB f b s) := outputKept_of_base rfl

theorem occur_kept (c src : Nat) (s : State) : OutputKept c s (occur src s) := outputKept_of_base (within_occur src s).1

theorem raiseAll_base (rs : List Raise) (s : State) : (raiseAll rs s).base = s.base :=
  foldl_keep State.base _ s _ fun s r => (raiseSrc_frame r s).1

theorem fastProtect_base (c : Nat) (v : F32) (q : BitVec 3) (s : State) : (fastProtect c v q s).base = s.base := by
  unfold fastProtect
  extract_lets e
  generalize hp : forUpto 14 _ _ = p
  have kept : p.1.base = s.base := by
    rw [← hp]
    refine forUpto_keep (fun x : State × List Raise => x.1.base) 14 (s, []) _ fun x i => ?_
    dsimp only
    split <;> rfl
  exact (raiseAll_base p.2 p.1).trans kept

theorem trigOutput_base (c : Nat) (fast : Bool) (v : F32) (q : BitVec 3) (t : Nat) (s : State) :
    (trigOutput c fast v q t s).base = s.base := by
  unfold trigOutput
  refine foldl_keep State.base _ s _ fun s x => ?_
  dsimp only
  split
  · split <;> rfl
  · rfl

theorem ledgerOutput_base (c : Nat) (fast : Bool) (v : F32) (q : BitVec 3) (t : Nat) (s : State) :
    (ledgerOutput c fast v q t s).base = s.base := by
  unfold ledgerOutput
  refine (trigOutput_base c fast v q t _).trans ?_
  split <;> rfl

theorem thresholds_kept (c : Nat) (fast : Bool) (v : F32) (q : BitVec 3) (coarse : Bool) (s : State) :
    OutputKept c s (thresholds c fast v q coarse s) := by
  unfold thresholds
  extract_lets e
  generalize hp : forUpto 2 _ _ = p
  have kept : OutputKept c s p.1 := by
    rw [← hp]
    refine forUpto_inv (fun x : State × List Raise => OutputKept c s x.1) 2 (s, []) _ (.refl c s) fun x k h => ?_
    dsimp only
    split
    · generalize thrStep _ v q coarse _ = y
      have m : OutputKept c x.1 (modChain c (fun z => if k = 0 then { z with thr0 := y.1 } else { z with thr1 := y.1 }) x.1) :=
        outputKept_modChain c (by intro z; split <;> rfl) x.1
      split
      · dsimp only
        exact ((h.trans m).trans (wrB_kept c _ true _)).trans (occur_kept c (2 * c + k) _)
      · exact h.trans m
    · exact h
  exact kept.trans (outputKept_of_base (raiseAll_base p.2 p.1))

theorem gridStep_kept (c : Nat) (s : State) : OutputKept c s (gridStep c s) := by
  unfold gridStep
  extract_lets e x settled emitAt s1 step pos pos' p j s2
  have emits : ∀ p j u, OutputKept c u (emitAt p j u) := by
    intro p j u
    dsimp only [emitAt]
    split
    · exact .refl c u
    · exact outputKept_modChain c (by intro x; rfl) u
  have h1 : OutputKept c s s1 := by
    dsimp only [s1]
    split
    · exact (outputKept_modChain c (by intro x; rfl) s).trans (emits _ _ _)
    · exact .refl c s
  split
  · exact .refl c s
  · split
    · exact h1.trans (outputKept_modChain c (by intro x; rfl) _)
    · have h2 : OutputKept c s s2 := h1.trans (outputKept_modChain c (by intro x; rfl) s1)
      split
      · exact h2.trans (outputKept_modChain c (by intro x; rfl) _)
      · exact h2.trans (emits _ _ _)

theorem calAdd_kept (c k : Nat) (raw : Rat) (q : BitVec 3) (scan : Option (BitVec 16)) (s : State) :
    OutputKept c s (calAdd k raw q scan s) := by
  unfold calAdd
  split
  · split
    · exact ⟨rfl, rfl, rfl, fun _ _ => rfl, rfl⟩
    · exact .refl c s
  · exact .refl c s

/-! The outputs that complete outside a fade (R240, R243, R244). -/

/-- A fast output outside a fade is the converted value of the active bank (R240, R243). -/
theorem fastOut_done {c : Nat} {s : State} (h : (chain s c).fade = none) (raw : Rat) (q : BitVec 3) (at_ : Nat) :
    OutputDone c s s.time
      { chain s c with
        fast := some { value := of32 (convert s c (chBank s c (chain s c).bankB) raw), qual := q, at_ := at_
                       bank := (chain s c).bankB }
        fastCnt := (chain s c).fastCnt + 1 }
      (fastOut c raw q at_ s) := by
  have w : fadeWeight (chain s c) = 0 := by
    unfold fadeWeight
    rw [h]
  unfold fastOut
  extract_lets x w' bank old v s1
  have hbank : bank = x.bankB := by
    dsimp only [bank]
    rw [h]
  have hv : v = of32 (convert s c old raw) := by
    dsimp only [v]
    rw [h]
  have hw : decide (0 < w' ∧ w' < 1) = false := decide_eq_false fun k => by
    rw [show w' = 0 from w] at k
    exact Rat.lt_irrefl k.1
  have d := outputDone_modChain c (fun x =>
    { x with fast := some { value := v, qual := q, at_ := at_, bank := bank, fading := decide (0 < w' ∧ w' < 1) }
             fastCnt := x.fastCnt + 1 }) s
  have e := (d.kept (outputKept_of_base (fastProtect_base c v q s1))).kept (thresholds_kept c true v q false _)
  have f := e.kept (outputKept_of_base (ledgerOutput_base c true v q at_ _))
  rw [hw, hbank, hv] at f
  rw [hv]
  exact f

/-- A fine output outside a fade is the converted FIR sum of the line, with the worst quality of its span (R237, R243, R244). -/
theorem fineOut_done {c : Nat} {s : State} (h : (chain s c).fade = none) (at_ : Nat) :
    OutputDone c s s.time
      { chain s c with
        fade := none, fineCnt := (chain s c).fineCnt + 1, fresh := 0
        fines := ({ value := of32 (convert s c (chBank s c (chain s c).bankB)
                      (firSum (chBank s c (chain s c).bankB) (chain s c).firLine))
                    qual := lineQuality (chain s c) (bkTaps (chBank s c (chain s c).bankB)) (chMed (chDesc s c))
                    at_ := at_, bank := (chain s c).bankB } :: (chain s c).fines).take 16 }
      (fineOut c at_ s) := by
  unfold fineOut
  extract_lets x e old raw q fade x' on w v ends bank s1 coarse s2 s3 s4
  have hfade : fade = none := by
    dsimp only [fade, x]
    rw [h]
    rfl
  have hon : on = false := by
    dsimp only [on]
    rw [hfade]
  have hv : v = of32 (convert s c old raw) := by
    dsimp only [v]
    rw [hfade]
  have hbank : bank = x.bankB := by
    dsimp only [bank]
    rw [hfade]
  have d := outputDone_modChain c (fun x => { x with
    fade := fade, fineCnt := x.fineCnt + 1, fresh := 0
    fines := ({ value := v, qual := q, at_ := at_, bank := bank, fading := on && !ends } :: x.fines).take 16 }) s
  have cal : OutputKept c s1 s2 := by
    dsimp only [s2]
    split
    · exact calAdd_kept c c raw q none s1
    · exact .refl c s1
  have thr : OutputKept c s2 s3 :=
    (thresholds_kept c false v q coarse s2).trans (outputKept_of_base (ledgerOutput_base c false v q at_ _))
  have f := ((d.kept cal).kept thr).kept (gridStep_kept c s3)
  rw [hfade, hv, hbank, hon] at f
  rw [hon, if_neg Bool.false_ne_true]
  exact f

/-! The decimators (R237, R240). -/

/-- The bits that went in, counted by what a decimator holds and what it has put out at `r` bits each. -/
def bitsIn (r : Nat) (x : Cic × List Int) : Nat := x.1.n + x.2.length * r

theorem cicBit_counts (order3 : Bool) {r : Nat} (b : Int) {x : Cic × List Int} (h : x.1.n < r) :
    (cicBit order3 r b x).1.n < r ∧ bitsIn r (cicBit order3 r b x) = bitsIn r x + 1 := by
  unfold cicBit bitsIn
  dsimp only
  split
  · next k => exact ⟨k, by dsimp only; omega⟩
  · next k =>
    dsimp only at k ⊢
    rw [List.length_append, List.length_singleton, Nat.add_mul]
    omega

theorem cicBits_count (order3 : Bool) {r : Nat} (inv : Bool) (bits : List Bool) (x : Cic × List Int) (h : x.1.n < r) :
    (bits.foldl (fun x b => cicBit order3 r (if xor b inv then 1 else -1) x) x).1.n < r ∧
      bitsIn r (bits.foldl (fun x b => cicBit order3 r (if xor b inv then 1 else -1) x) x) = bitsIn r x + bits.length := by
  induction bits generalizing x with
  | nil => exact ⟨h, rfl⟩
  | cons b l ih =>
    obtain ⟨below, count⟩ := cicBit_counts order3 (if xor b inv then 1 else -1) h
    obtain ⟨below', count'⟩ := ih _ below
    refine ⟨below', ?_⟩
    rw [List.foldl_cons, count', count, List.length_cons]
    omega

/-- A decimator puts out a value for every `r` bits, counting those it holds, and keeps the rest. -/
theorem cicRun_count (order3 : Bool) {r : Nat} (inv : Bool) (bits : List Bool) (c : Cic) (h : c.n < r) :
    (cicRun order3 r inv bits c).1.n < r ∧
      (cicRun order3 r inv bits c).1.n + (cicRun order3 r inv bits c).2.length * r = c.n + bits.length := by
  obtain ⟨below, count⟩ := cicBits_count order3 inv bits (c, []) h
  exact ⟨below, count.trans (by simp [bitsIn])⟩

/-- The bits of `m` whole outputs bring `m` outputs, and none is left over. -/
theorem cicRun_whole (order3 : Bool) {r m : Nat} (inv : Bool) (bits : List Bool) (c : Cic) (h : c.n < r)
    (w : c.n + bits.length = m * r) :
    (cicRun order3 r inv bits c).1.n = 0 ∧ (cicRun order3 r inv bits c).2.length = m := by
  obtain ⟨below, count⟩ := cicRun_count order3 inv bits c h
  rw [w] at count
  have zero : (cicRun order3 r inv bits c).1.n = 0 := by
    have k := congrArg (· % r) count
    simpa [Nat.mod_eq_of_lt below] using k
  rw [zero, Nat.zero_add] at count
  exact ⟨zero, Nat.eq_of_mul_eq_mul_right (by omega) count⟩

/-- The bits of an output make up its period, with the one a decimator holds after a reset (R240). -/
theorem pathBits_whole (j p : Nat) (h : 0 < p) : bitNat (j == 0) + pathBits (j + 1) p = p := by
  unfold pathBits bitNat
  by_cases e : j = 0
  · subst e; simp; omega
  · simp [e]

/-- The bits of an output of period `r * m` bring `m` values and leave the decimator empty. -/
theorem cicRun_path (order3 : Bool) {r m j : Nat} (inv : Bool) (bits : List Bool) (c : Cic) (hr : 1 < r) (hm : 0 < m)
    (h : c.n = bitNat (j == 0)) (w : bits.length = pathBits (j + 1) (r * m)) :
    (cicRun order3 r inv bits c).1.n = 0 ∧ (cicRun order3 r inv bits c).2.length = m := by
  have small : c.n < r := by
    rw [h]
    unfold bitNat
    split <;> omega
  refine cicRun_whole order3 inv bits c small ?_
  rw [h, w, pathBits_whole j _ (Nat.mul_pos (by omega) hm), Nat.mul_comm]

/-! A fast output (R240, R243). -/

theorem OutputDone.trans {c : Nat} {s t u : State} {now then_ : Nat} {x y : ChainSt} (h : OutputDone c s now x t)
    (g : OutputDone c t then_ y u) : OutputDone c s then_ y u := by
  obtain ⟨_, conv, cells, others, _⟩ := h
  obtain ⟨time', conv', cells', others', own'⟩ := g
  exact ⟨time', conv'.trans conv, Eq.trans cells' cells, fun k n => (others' k n).trans (others k n), own'⟩

/-- Before the second output of a sinc2, and while the channel is stuck, the quality is BAD (R216, R240). -/
theorem sdQual_fast (s : State) (c n : Nat) :
    sdQual s c (cicValid false (n + 1)) = if n = 0 ∨ s.meas.stuck.getLsbD c = true then qBad else qFine := by
  unfold sdQual cicValid
  by_cases h : n = 0
  · simp [h]
  · have k : 2 ≤ n + 1 := by omega
    simp [h, k]

/-- The time of an output, and the chain with its decimators moved on. -/
theorem moved_done (c : Nat) (f : ChainSt → ChainSt) (now : Nat) (s : State) :
    OutputDone c s now (f (chain s c)) (modChain c f { s with time := now }) :=
  ⟨rfl, rfl, rfl, fun _ n => chain_modChain_ne f { s with time := now } n, by rw [chain_modChain_same]; rfl⟩

/-- The bits of a fast output outside a fade bring the one value that completes at its instant (R240, R243). -/
theorem fastPath_done {c : Nat} {bits : List Bool} {s : State} (runs : sdRuns s c = true) (fast : chFast (chDesc s c) = true)
    (len : bits.length = pathBits ((chain s c).fastCnt + 1) (chR3 (chDesc s c))) (nofade : (chain s c).fade = none) {d : Cic} {y : Int}
    (hc : cicRun false (chR3 (chDesc s c)) (rdB s (MEA_SDCH_INV c)) bits (chain s c).sinc2 = (d, [y])) :
    OutputDone c s (max s.time (sdInstant s (chain s c) ((chain s c).fastCnt + 1) (chR3 (chDesc s c))))
      { chain s c with
        sinc2 := d, fastCnt := (chain s c).fastCnt + 1
        fast := some { value := of32 (convert s c (chBank s c (chain s c).bankB) (cicRaw false (chR3 (chDesc s c)) y))
                       qual := sdQual s c (cicValid false ((chain s c).fastCnt + 1)), bank := (chain s c).bankB
                       at_ := sdInstant s (chain s c) ((chain s c).fastCnt + 1) (chR3 (chDesc s c)) } }
      (fastPath c bits s) := by
  unfold fastPath
  extract_lets x e j t
  rw [if_neg (by simp [runs, e, fast, len, j, x]), show cicRun false (chR3 e) (rdB s (MEA_SDCH_INV c)) bits x.sinc2 = (d, [y]) from hc]
  have m := moved_done c (fun x => { x with sinc2 := d }) (max s.time t) s
  have own : chain (modChain c (fun x => { x with sinc2 := d }) { s with time := max s.time t }) c = { chain s c with sinc2 := d } :=
    chain_modChain_same c _ _
  have f := fastOut_done (c := c) (s := modChain c (fun x => { x with sinc2 := d }) { s with time := max s.time t })
    (by rw [own]; exact nofade) (cicRaw false (chR3 e) y) (sdQual s c (cicValid false j)) t
  rw [own] at f
  exact m.trans f

/-! A fine output (R237, R238, R240, R243, R244). -/

/-- A chain's line fed with the values `ys` of its sinc3, of which `n` came before (R238). -/
def fedWith (s : State) (c n : Nat) (ys : List Int) (x : ChainSt) : ChainSt :=
  ((List.range ys.length).zip ys).foldl (fun x y =>
    feed (chMed (chDesc s c)) (cicRaw true (chR1 (chDesc s c)) y.2) (sdQual s c (cicValid true (n + y.1 + 1))) x) x

/-- Feeding keeps what the median stage and the FIR line do not hold. -/
theorem fedWith_keeps {β : Type} (g : ChainSt → β) (h : ∀ m v q x, g (feed m v q x) = g x) (s : State) (c n : Nat) (ys : List Int)
    (x : ChainSt) : g (fedWith s c n ys x) = g x :=
  foldl_keep g _ x _ fun _ _ => h _ _ _ _

/-- Feeding does not look at the decimator. -/
theorem fedWith_sinc3 (s : State) (c n : Nat) (ys : List Int) (d : Cic) (x : ChainSt) :
    fedWith s c n ys { x with sinc3 := d } = { fedWith s c n ys x with sinc3 := d } := by
  unfold fedWith
  induction (List.range ys.length).zip ys generalizing x with
  | nil => rfl
  | cons y l ih => exact ih (feed _ _ _ x)

/-- The bits of a fine output outside a fade feed the line with what the sinc3 makes of them, and the FIR's sum over it completes
at its instant. -/
theorem finePath_done {c : Nat} {bits : List Bool} {s : State} (runs : sdRuns s c = true)
    (len : bits.length = pathBits ((chain s c).fineCnt + 1) (chR1 (chDesc s c) * chR2 (chDesc s c)))
    (nofade : (chain s c).fade = none) {d : Cic} {ys : List Int}
    (hc : cicRun true (chR1 (chDesc s c)) (rdB s (MEA_SDCH_INV c)) bits (chain s c).sinc3 = (d, ys)) :
    let b := chBank s c (chain s c).bankB
    let at_ := sdInstant s (chain s c) ((chain s c).fineCnt + 1) (chR1 (chDesc s c) * chR2 (chDesc s c))
    let y := fedWith s c (chain s c).sinc3.outs ys (chain s c)
    OutputDone c s (max s.time at_)
      { y with
        sinc3 := d, fade := none, fineCnt := (chain s c).fineCnt + 1, fresh := 0
        fines := ({ value := of32 (convert s c b (firSum b y.firLine)), qual := lineQuality y (bkTaps b) (chMed (chDesc s c))
                    at_ := at_, bank := (chain s c).bankB } :: (chain s c).fines).take 16 }
      (finePath c bits s) := by
  intro b at_ y
  have keeps : y.fade = (chain s c).fade ∧ y.fineCnt = (chain s c).fineCnt ∧ y.fines = (chain s c).fines ∧
      y.bankB = (chain s c).bankB :=
    ⟨fedWith_keeps ChainSt.fade (fun _ _ _ _ => rfl) _ _ _ _ _, fedWith_keeps ChainSt.fineCnt (fun _ _ _ _ => rfl) _ _ _ _ _,
      fedWith_keeps ChainSt.fines (fun _ _ _ _ => rfl) _ _ _ _ _, fedWith_keeps ChainSt.bankB (fun _ _ _ _ => rfl) _ _ _ _ _⟩
  obtain ⟨hfade, hcnt, hfines, hbank⟩ := keeps
  generalize hu : modChain c (fun x => { x with sinc3 := d }) { s with time := max s.time at_ } = u
  generalize hw : modChain c (fedWith s c (chain s c).sinc3.outs ys) u = w
  have path : finePath c bits s = fineOut c at_ w := by
    unfold finePath
    extract_lets e x j t
    rw [if_neg (by simp [runs, e, len, j, x]),
      show cicRun true (chR1 e) (rdB s (MEA_SDCH_INV c)) bits x.sinc3 = (d, ys) from hc, ← hw, ← hu]
    rfl
  have own : chain w c = { y with sinc3 := d } := by
    rw [← hw, chain_modChain_same, ← hu, chain_modChain_same]
    exact fedWith_sinc3 s c _ ys d (chain s c)
  have moved : OutputDone c s (max s.time at_) { chain s c with sinc3 := d } u := by
    rw [← hu]
    exact moved_done c (fun x => { x with sinc3 := d }) (max s.time at_) s
  have fed : OutputDone c u w.time (chain w c) w := by
    rw [← hw, chain_modChain_same]
    exact outputDone_modChain c _ u
  have out := fineOut_done (c := c) (s := w) (by rw [own]; exact hfade.trans nofade) at_
  have reads : w.time = max s.time at_ ∧ (∀ b, chBank w c b = chBank s c b) ∧ (∀ b r, convert w c b r = convert s c b r) ∧
      chDesc w c = chDesc s c := by
    rw [← hw, ← hu]
    exact ⟨rfl, fun _ => rfl, fun _ _ => rfl, rfl⟩
  obtain ⟨time, banks, converts, desc⟩ := reads
  have bank : (chain w c).bankB = (chain s c).bankB := by rw [own]; exact hbank
  have cnt : (chain w c).fineCnt = (chain s c).fineCnt := by rw [own]; exact hcnt
  have fines : (chain w c).fines = (chain s c).fines := by rw [own]; exact hfines
  rw [bank, cnt, fines, own, banks, converts, desc, time] at out
  rw [path]
  exact (moved.trans fed).trans out

/-! The chain resets asked for (R248). -/

/-- A chain asked for a reset at the next mark, or at the one after it (R248). -/
def askedReset (late : Bool) (x : ChainSt) : ChainSt :=
  if late then { x with resetLate := true } else { x with resetReq := true }

/-- Whether a write of `v` names the chain `j`, by one of its first `n` bits, of which bit 0 is chain `ofs`. -/
def named (v : Word) (ofs n j : Nat) : Bool := decide (ofs ≤ j ∧ j < ofs + n ∧ j < 40) && v.getLsbD (j - ofs)

/-- The chains that the first `n` bits of `v` name are asked for a reset and their bits of the field `f` read 1; the rest of the
state stands. -/
structure ResetsAsked (f : Field) (ofs : Nat) (late : Bool) (v : Word) (s : State) (n : Nat) (t : State) : Prop where
  rest : t = { s with regs := t.regs, chains := t.chains }
  regs : ∀ a, a ≠ f.addr → rdWord t a = rdWord s a
  bits : ∀ k, k < n → ofs + k < 40 → v.getLsbD k = true → rdBit t f k = true
  chains : ∀ j, chain t j = if named v ofs n j = true then askedReset late (chain s j) else chain s j

theorem named_succ_ne {v : Word} {ofs n j : Nat} (h : j ≠ ofs + n) : named v ofs (n + 1) j = named v ofs n j := by
  unfold named
  have e : (ofs ≤ j ∧ j < ofs + (n + 1) ∧ j < 40) ↔ ofs ≤ j ∧ j < ofs + n ∧ j < 40 := by omega
  rw [decide_eq_decide.mpr e]

theorem named_none (v : Word) (ofs j : Nat) : named v ofs 0 j = false := by
  have e : ¬(ofs ≤ j ∧ j < ofs + 0 ∧ j < 40) := by omega
  simp only [named, decide_eq_false e, Bool.false_and]

theorem named_self (v : Word) (ofs n : Nat) : named v ofs n (ofs + n) = false := by
  simp [named]

theorem named_succ_self (v : Word) (ofs n : Nat) : named v ofs (n + 1) (ofs + n) = (v.getLsbD n && decide (ofs + n < 40)) := by
  simp [named, Bool.and_comm]

/-- The next bit asks for the reset of the chain it names, if it is set and there is one. -/
theorem ResetsAsked.step {f : Field} {ofs n : Nat} {late : Bool} {v : Word} {s t : State} (h : ResetsAsked f ofs late v s n t)
    (top : f.lo + f.width ≤ 32) (wide : ofs + n < 40 → n < f.width) :
    ResetsAsked f ofs late v s (n + 1)
      (if v.getLsbD n && decide (ofs + n < 40) then modChain (ofs + n) (askedReset late) (wrBit f n true t) else t) := by
  obtain ⟨rest, regs, bits, chains⟩ := h
  split
  case isTrue set =>
    have room : ofs + n < 40 := by simpa using (Bool.and_eq_true_iff.mp set).2
    refine ⟨?_, fun a ne => ?_, fun k lt there one => ?_, fun j => ?_⟩
    · exact congrArg (fun x : State => { x with
        regs := (modChain (ofs + n) (askedReset late) (wrBit f n true t)).regs
        chains := (modChain (ofs + n) (askedReset late) (wrBit f n true t)).chains }) rest
    · have other : a ≠ (⟨f.addr, f.lo + n, 1⟩ : Field).addr := ne
      exact (rdWord_wr_ne t _ _ other).trans (regs a ne)
    · have kw : k < f.width := by
        have := wide room
        omega
      refine (rdBit_wrBit f n k true t top (wide room) kw).trans ?_
      split
      · rfl
      · exact bits k (by omega) there one
    · by_cases e : j = ofs + n
      · subst e
        rw [chain_modChain_same, named_succ_self, if_pos set]
        exact congrArg (askedReset late) ((chains _).trans (by rw [named_self]; rfl))
      · rw [chain_modChain_ne _ _ e, named_succ_ne e]
        exact chains j
  case isFalse clear =>
    refine ⟨rest, regs, fun k lt there one => ?_, fun j => ?_⟩
    · refine bits k (Nat.lt_of_le_of_ne (by omega) fun e => clear ?_) there one
      subst e
      simp [one, there]
    · by_cases e : j = ofs + n
      · subst e
        rw [named_succ_self, if_neg clear, chains, named_self, if_neg Bool.false_ne_true]
      · rw [named_succ_ne e]
        exact chains j

/-- The bits of a write, taken in turn. -/
theorem resetsAsked_forUpto {f : Field} {ofs : Nat} (late : Bool) (v : Word) (s : State) (top : f.lo + f.width ≤ 32)
    (wide : ∀ k, ofs + k < 40 → k < 32 → k < f.width) (n : Nat) (le : n ≤ 32) :
    ResetsAsked f ofs late v s n (forUpto n s fun s k =>
      if v.getLsbD k && decide (ofs + k < 40) then modChain (ofs + k) (askedReset late) (wrBit f k true s) else s) := by
  induction n with
  | zero => exact ⟨rfl, fun _ _ => rfl, fun _ lt => absurd lt (Nat.not_lt_zero _), fun j => by simp [forUpto, named_none]⟩
  | succ n ih =>
    unfold forUpto at ih ⊢
    rw [List.range_succ, List.foldl_append]
    exact (ih (by omega)).step top fun there => wide n there (by omega)

/-- The field a chain reset is asked in: RST of FLC_RST0 or of FLC_RST1. -/
def resetField (high : Bool) : Field := if high then FLC_RST1_RST else FLC_RST0_RST

/-- The chain that bit 0 of that field names. -/
def resetBase (high : Bool) : Nat := if high then 32 else 0

theorem flcRst_asks (high : Bool) (v : Word) (s : State) :
    ResetsAsked (resetField high) (resetBase high) (inFence s) v s 32 (flcRst high v s) := by
  have e : ∀ k, (if high then 32 + k else k) = resetBase high + k := fun k => by cases high <;> simp [resetBase]
  unfold flcRst
  simp only [e]
  refine resetsAsked_forUpto (inFence s) v s ?_ (fun k there lt => ?_) 32 (Nat.le_refl _)
  · cases high <;> decide
  · cases high
    · exact lt
    · simp only [resetBase, if_true] at there
      simp only [resetField, if_true, FLC_RST1_RST]
      omega

/-! The obligation. -/

/-- What a chain's comparators and grid position do not decide. -/
theorem ChainSt.signal_read {β : Type} {x y : ChainSt} (h : x.signal = y.signal) (g : ChainSt → β)
    (k : ∀ z : ChainSt, g z.signal = g z) :
    g x = g y := (k x).symm.trans ((congrArg g h).trans (k y))

/-- What the statement says of a fast output, from the state its bits lead to. -/
theorem fastPathOutput_completes {c : Fin 40} {bits : List Bool} {s : State} (live : Live s) (runs : sdRuns s c = true)
    (nofade : (chain s c).fade = none) (fast : chFast (chDesc s c) = true) (r3 : 1 < chR3 (chDesc s c))
    (held : (chain s c).sinc2.n = bitNat ((chain s c).fastCnt == 0))
    (len : bits.length = pathBits ((chain s c).fastCnt + 1) (chR3 (chDesc s c))) :
    Completes (.fastPathOutput c bits) s (fun t =>
      let e := chDesc s c
      let x := chain s c
      let inv := rdB s (MEA_SDCH_INV c)
      let at_ := sdInstant s x (x.fastCnt + 1) (chR3 e)
      t.time = max s.time at_ ∧ (chain t c).fastCnt = x.fastCnt + 1 ∧ (chain t c).fineCnt = x.fineCnt ∧
        (chain t c).sinc2 = (cicRun false (chR3 e) inv bits x.sinc2).1 ∧ (chain t c).sinc2.n = 0 ∧
        (∃ y, (cicRun false (chR3 e) inv bits x.sinc2).2 = [y] ∧
          (chain t c).fast = some { value := of32 (convert s c (chBank s c x.bankB) (cicRaw false (chR3 e) y)), at_ := at_
                                    bank := x.bankB
                                    qual := if x.fastCnt = 0 ∨ s.meas.stuck.getLsbD c = true then qBad else qFine }) ∧
        (∀ k, k ≠ c.val → chain t k = chain s k) ∧ KeepsCells s t ∧ t.conv = s.conv) := by
  have out := cicRun_path (m := 1) false (rdB s (MEA_SDCH_INV c)) bits (chain s c).sinc2 r3 Nat.one_pos held (by rw [Nat.mul_one, len])
  obtain ⟨empty, one⟩ := out
  obtain ⟨y, hy⟩ := List.length_eq_one_iff.mp one
  have done := fastPath_done (c := c) (bits := bits) (s := { s with sent := [] }) runs fast len nofade (Prod.ext rfl hy)
  refine completes_cmd rfl live ?_
  generalize fastPath c bits { s with sent := [] } = t at done ⊢
  obtain ⟨time, conv, cells, others, own⟩ := done
  have sinc := ChainSt.signal_read own ChainSt.sinc2 fun _ => rfl
  have hfast := ChainSt.signal_read own ChainSt.fast fun _ => rfl
  refine ⟨time, ChainSt.signal_read own ChainSt.fastCnt (fun _ => rfl), ChainSt.signal_read own ChainSt.fineCnt (fun _ => rfl), sinc,
    (congrArg Cic.n sinc).trans empty, ⟨y, hy, ?_⟩, others, cells, conv⟩
  rw [← sdQual_fast]
  exact hfast

/-- What the statement says of a fine output, from the state its bits lead to. -/
theorem finePathOutput_completes {c : Fin 40} {bits : List Bool} {s : State} (live : Live s) (runs : sdRuns s c = true)
    (nofade : (chain s c).fade = none) (r1 : 1 < chR1 (chDesc s c)) (r2 : 0 < chR2 (chDesc s c))
    (held : (chain s c).sinc3.n = bitNat ((chain s c).fineCnt == 0))
    (len : bits.length = pathBits ((chain s c).fineCnt + 1) (chR1 (chDesc s c) * chR2 (chDesc s c))) :
    Completes (.finePathOutput c bits) s (fun t =>
      let e := chDesc s c
      let x := chain s c
      let b := chBank s c x.bankB
      let at_ := sdInstant s x (x.fineCnt + 1) (chR1 e * chR2 e)
      let ys := (cicRun true (chR1 e) (rdB s (MEA_SDCH_INV c)) bits x.sinc3).2
      let y := fedWith s c x.sinc3.outs ys x
      t.time = max s.time at_ ∧ (chain t c).fineCnt = x.fineCnt + 1 ∧ (chain t c).fastCnt = x.fastCnt ∧
        (chain t c).fresh = 0 ∧ ys.length = chR2 e ∧ (chain t c).sinc3.n = 0 ∧
        (chain t c).fines = ({ value := of32 (convert s c b (firSum b y.firLine)), at_ := at_, bank := x.bankB
                               qual := lineQuality y (bkTaps b) (chMed e) } :: x.fines).take 16 ∧
        (chain t c).firLine = y.firLine ∧ (∀ k, k ≠ c.val → chain t k = chain s k) ∧ KeepsCells s t ∧ t.conv = s.conv) := by
  obtain ⟨empty, values⟩ := cicRun_path true (rdB s (MEA_SDCH_INV c)) bits (chain s c).sinc3 r1 r2 held len
  have done := finePath_done (c := c) (bits := bits) (s := { s with sent := [] }) runs len nofade rfl
  refine completes_cmd rfl live ?_
  generalize finePath c bits { s with sent := [] } = t at done ⊢
  obtain ⟨time, conv, cells, others, own⟩ := done
  have sinc := ChainSt.signal_read own ChainSt.sinc3 fun _ => rfl
  have cnt : (chain t c).fastCnt = (chain s c).fastCnt :=
    (ChainSt.signal_read own ChainSt.fastCnt fun _ => rfl).trans (fedWith_keeps ChainSt.fastCnt (fun _ _ _ _ => rfl) _ _ _ _ _)
  exact ⟨time, ChainSt.signal_read own ChainSt.fineCnt (fun _ => rfl), cnt,
    ChainSt.signal_read own ChainSt.fresh (fun _ => rfl), values, (congrArg Cic.n sinc).trans empty,
    ChainSt.signal_read own ChainSt.fines (fun _ => rfl), ChainSt.signal_read own ChainSt.firLine (fun _ => rfl), others, cells, conv⟩

/-- The chain that bit `k` of a reset write names, and whether the write names it. -/
theorem named_resetBase (high : Bool) (v : Word) {k : Nat} (lt : k < 32) (there : (if high then 32 + k else k) < 40) :
    named v (resetBase high) 32 (if high then 32 + k else k) = v.getLsbD k := by
  cases high
  · have e : 0 ≤ k ∧ k < 0 + 32 ∧ k < 40 := by omega
    simp [named, resetBase, e]
  · have e : 32 ≤ 32 + k ∧ 32 + k < 32 + 32 ∧ 32 + k < 40 := ⟨by omega, by omega, there⟩
    simp only [named, resetBase, if_true, decide_eq_true e, Bool.true_and, Nat.add_sub_cancel_left]

/-- A write to one of the two registers names no chain of the other. -/
theorem named_other {high : Bool} {c : Nat} (v : Word) (h : decide (c < 32) = high) : named v (resetBase high) 32 c = false := by
  have e : ¬(resetBase high ≤ c ∧ c < resetBase high + 32 ∧ c < 40) := by
    cases high
    case false =>
      have low : ¬c < 32 := of_decide_eq_false h
      simp only [resetBase, Bool.false_eq_true, if_false]
      omega
    case true =>
      have low : c < 32 := of_decide_eq_true h
      simp only [resetBase, if_true]
      omega
  simp only [named, decide_eq_false e, Bool.false_and]

/-- Settles O41: an output outside a fade by counting the bits its decimator takes, and the resets by following the bits of the
write. -/
theorem filterChains : Obligations.FilterChains := by
  unfold Obligations.FilterChains
  refine ⟨fun c bits s live runs nofade => ⟨fastPathOutput_completes live runs nofade, finePathOutput_completes live runs nofade⟩,
    fun high v s hw => ?_⟩
  refine completes_write_kept rfl hw (flcRst_pending high v _) ?_
  obtain ⟨rest, regs, bits, chains⟩ := flcRst_asks high v { s with sent := [] }
  generalize flcRst high v { s with sent := [] } = t at rest regs bits chains ⊢
  refine ⟨fun k lt there => ⟨fun set => ⟨?_, ?_⟩, fun clear => ?_⟩, fun c other => ?_, rest, fun a ne => regs a ?_⟩
  · refine bits k lt ?_ set
    cases high <;> simpa [resetBase] using there
  · rw [chains, named_resetBase high v lt there, if_pos set]
    rfl
  · rw [chains, named_resetBase high v lt there, clear]
    rfl
  · rw [chains, named_other v other]
    rfl
  · cases high <;> simpa [resetField, FLC_RST0_RST, FLC_RST1_RST] using ne

end Sys2Proof.Machine
end
